-- ==== Sys2Proof/Word.lean ====
section
/-! DEFINITION. The word types, the sparse table and the numbered units every other file uses. -/

namespace Sys2Proof

abbrev Byte := BitVec 8
abbrev Word64 := BitVec 64

/-- A sparse table from a unit's number to its contents. Entries are in strictly rising key order and none
equals what an unlisted key reads as, so equal tables are equal data (`Tab.wf` in Machine/Tab.lean). -/
structure Tab (α : Type) where
  ents : List (Nat × α) := []
deriving DecidableEq, Repr

/-! Unit numbers of R11, R12 and R15 (spec/01_architecture.md). -/
abbrev HostId := Fin 5
abbrev HeathId := Fin 4
abbrev MeadowId := Fin 192
abbrev RowId := Fin 32
abbrev EngineId := Fin 512
abbrev EntryId := Fin 8192
abbrev SkimId := Fin 12288
abbrev QueueId := Fin 98304
abbrev ScreedId := Fin 1152
abbrev CtxId := Fin 4096
abbrev ChanId := Fin 32
abbrev RegionId := Fin 256
abbrev StackId := Fin 2
abbrev LaneId := Fin 96
abbrev SdiId := Fin 32
abbrev BlockId := Fin 4
abbrev LoopId := Fin 64
abbrev GclkId := Fin 64
abbrev WindowId := Fin 1024
abbrev BankId := Fin 16
abbrev PinId := Fin 48
abbrev CueKey := Fin 16384

/-- A handle of a pool buffer, 20 bits (R215). -/
abbrev Handle := Nat

end Sys2Proof
end

