-- ==== Sys2Proof/Syntax.lean ====
section
/-! DEFINITION. The commands the block takes: one constructor per row of the table, each with its row's operands.
A mailbox command's row carries the host alone: its argument words are those of the command slot that the warden has
started for that host (COMMAND_START). A stipple operation's row carries the engine alone: its fields are those of the
instruction word at that engine's PC. What only the outside decides (a packet, a pin, a measured outcome) is an operand. -/

namespace Sys2Proof

/-- Who makes a hedgerow request (REQ_KIND and REQ_INDEX of R442, spec/21). -/
inductive Source where
  | host (h : HostId)
  | flow (c : CtxId)
  | sched (h : HeathId)
  | gate (m : MeadowId)
  | warden
  | engine (e : EngineId)
  | debug
  | queue (q : QueueId)
deriving DecidableEq, Repr

/-- Who posts a word, and the world of the entry or of the warden's role that it is posted for: secure for `role` (R129,
spec/06). -/
structure Poster where
  src : Source
  role : Bool
deriving DecidableEq, Repr

/-- Where an operand word comes from (R185, spec/09). -/
inductive OpSource where
  | forward (q : QueueId)
  | cue (k : CueKey)
  | commit (h : HeathId)
  | hedgerow (h : HeathId)
deriving DecidableEq, Repr

/-- What a PTP port receives (R27, R502, spec/02). Times in ns since the epoch, intervals as logMessageInterval. -/
inductive PtpMsg where
  /-- Announce of the master that best-master selection chooses; `stated` its Sync interval is admissible -/
  | announce (log : Int) (selected : Bool)
  /-- one-step Sync of the selected master: origin and receive time -/
  | sync (log : Int) (origin rx : Int)
  /-- two-step Sync: receive time, the origin follows -/
  | syncTwoStep (log : Int) (rx : Int)
  | followUp (origin : Int)
  /-- Delay_Req leaves at this time -/
  | delayReqSent (tx : Int)
  | delayResp (rx : Int)
  /-- any other message, or one of another domain or master -/
  | other
deriving DecidableEq, Repr

/-- A request on a hedgerow gate's outbound port (R211, spec/10). -/
structure GateIssue where
  type : BitVec 4
  addr : BitVec 56
  len : BitVec 9
  prio : BitVec 2
  ord : Bool
  tag : BitVec 6
  data : List Byte
  be : List Bool
deriving DecidableEq, Repr

/-- What comes to the fabric from outside the routing by a clock edge: a level at a pad (R474) and an output that a hard unit
presents (R61, R76). -/
inductive FabIn where
  | pad (b : BankId) (p : PinId) (v : Bool)
  | hard (m : MeadowId) (i : Nat) (v : BitVec 16)
deriving DecidableEq, Repr

/-- A memory port at an active edge: skx_addr, skx_en and skx_we (R88, spec/05), and what has come to the fabric from outside
since its last edge. The write data is what the port's word-in multiplexers bring. -/
structure PortIn where
  addr : BitVec 17
  en : Bool
  we : BitVec 4
  ins : List FabIn
deriving DecidableEq, Repr

/-- An access of a host to BAR0 that has no row of its own: a write, or a read, for which the table has no row (log 31). -/
inductive RegAccess where
  | write (data : BitVec 64)
  | read
deriving DecidableEq, Repr

/-- An SMBus write to the device: the command code and the bytes that follow it (R335, spec/15). -/
structure SmbMsg where
  code : BitVec 8
  bytes : List Byte
deriving DecidableEq, Repr

/-- A received Ethernet frame as its MAC sees it (R310, spec/14). -/
structure Frame where
  fcsOk : Bool
  length : Nat
  pause : Bool
  /-- destination address -/
  dst : BitVec 48
  /-- ARP, ICMP echo, PTP or IGMP: passed to the warden -/
  forWarden : Bool
  /-- an IGMP membership query -/
  query : Bool
  /-- codewords that the port's FEC has corrected, and found not correctable, since the frame before -/
  corr : Nat
  uncorr : Nat
deriving DecidableEq, Repr

/-- An ST 291 packet: line, horizontal offset, stream or channel, DID, SDID, user data words, as many as its data count
(R284, spec/13). -/
structure AncPkt where
  line : BitVec 11
  off : BitVec 12
  stream : BitVec 4
  did : BitVec 8
  sdid : BitVec 8
  udw : List (BitVec 10)
deriving DecidableEq, Repr

/-- RTP payload by kind: sample rows (row, field, pixel offset, octets), plain octets, or ST 291 packets. -/
inductive Body where
  | video (rows : List (Nat × Nat × Nat × List Byte))
  | raw (bytes : List Byte)
  | anc (recs : List AncPkt)
deriving DecidableEq, Repr

/-- An IPv4/UDP packet with its RTP fields (R272, spec/13). -/
structure Packet where
  ipUdp : Bool
  vlan : BitVec 12
  dstIp : BitVec 32
  dstUdp : BitVec 16
  srcIp : BitVec 32
  srcUdp : BitVec 16
  version : BitVec 2
  pt : BitVec 7
  seq : BitVec 16
  /-- ST 2110-20 extended sequence number, video only -/
  ext : BitVec 16
  ts : BitVec 32
  marker : Bool
  ssrc : BitVec 32
  body : Body
deriving DecidableEq, Repr

/-- A line an SDI input framer delivers (R295, R313, spec/13 and 14). -/
structure SdiLine where
  /-- active line number in the frame, none for a line without picture -/
  row : Option Nat
  field : Nat
  last : Bool
  st352 : Option (BitVec 32)
  /-- WIDTH, HEIGHT, SCAN, SAMPLING, DEPTH read from ST 352, in the layout of block word 0x38 -/
  fmt : BitVec 64
  crcOk : Bool
  trsOk : Bool
  picture : List Byte
  anc : List AncPkt
  badAnc : Nat
  ppm : BitVec 16
deriving DecidableEq, Repr

/-- What upsets have done to an HBM line since it was written (R243, R252, spec/11 and 12): bits changed among its 64 data bytes
and 8 bytes of side bits, a read that goes to a wrong location, an error that the stack's own code has reported as corrected,
an alteration that its side-bit code does not show but its tag does. -/
structure LineUpset where
  bits : BitVec 576 := 0
  addr : Bool := false
  onDie : Bool := false
  tag : Bool := false
deriving DecidableEq, Repr

/-- What the scrubber finds in a frame: words with a corrected and with an uncorrectable error, whether the CRC of the
corrected data matches the table entry, whether that entry holds an uncorrectable error, whether the write-back verifies
(R390, R391, spec/18). -/
structure FrameRead where
  single : List (Fin 64)
  uncorr : List (Fin 64)
  crcOk : Bool
  writeOk : Bool
  entryBad : Bool
deriving DecidableEq, Repr

/-- A supply rail (R418, spec/20). -/
inductive RailId where
  | core | aon | dbg | aux | lane | laneTx | hbm | hbmq | vpp | vccio (b : BankId) | vbat
deriving DecidableEq, Repr

/-- An upset of a frame of the plane that acts, or of the undercoat: data bits that it inverts (R78, spec/04), check bits that it
inverts, 8 for each word of 64 (R376, spec/18), an error in the frame's table entry that the entry's own check bits cannot correct
(R381). -/
structure FrameUpset where
  m : MeadowId
  under : Bool
  f : Fin 3072
  bits : BitVec 4096
  checks : BitVec 512 := 0
  entry : Bool := false
deriving DecidableEq, Repr

/-- A scan that reads: the access register with OP 0x1; with OP 0x0, which captures alone; with an OP of no operation (R457). And the
instruction register with a code of no instruction (R454). -/
inductive DbgScan where
  | read (addr : BitVec 64)
  | capture
  | noOp (op : BitVec 4) (addr : BitVec 64)
  | noInstr (code : BitVec 8)
deriving DecidableEq, Repr

/-- What a heritage controller meets on its pins as it completes a byte (R483, spec/23). -/
inductive SerialEvent where
  | received (b : Byte) (bad : Bool)
  | sent
  | nack
  | lostArbitration
deriving DecidableEq, Repr

/-- The commands: one constructor per row of spec/opcode_table.json. -/
inductive Instr where
  /-- DEVICE_QUERY (R353). -/
  | deviceQuery (h : HostId)
  /-- NOP (R353). -/
  | nop (h : HostId)
  /-- DEVICE_RESET (R422). -/
  | deviceReset (h : HostId)
  /-- DELAYED_DEVICE_RESET (R422). -/
  | delayedDeviceReset
  /-- EVENT_MASK_SET (R347). -/
  | eventMaskSet (h : HostId)
  /-- WORLD_SET (R440). -/
  | worldSet (h : HostId)
  /-- WORLD_QUERY (R353). -/
  | worldQuery (h : HostId)
  /-- CONFIG_LOAD (R370). -/
  | configLoad (h : HostId)
  /-- RECOAT_LOAD (R378). -/
  | recoatLoad (h : HostId)
  /-- RECOAT_LOAD_DONE (R378). -/
  | recoatLoadDone
  /-- RECOAT_DISCARD (R377). -/
  | recoatDiscard (h : HostId)
  /-- MEADOW_QUERY (R396). -/
  | meadowQuery (h : HostId)
  /-- CONFIG_READBACK (R394). -/
  | configReadback (h : HostId)
  /-- CONFIG_READBACK_DONE (R395). -/
  | configReadbackDone (hh : HeathId) (upset : List (Fin 3072 × BitVec 4096))
  /-- TIMELINE_DISCIPLINE (R503). -/
  | timelineDiscipline (h : HostId)
  /-- TIMELINE_SET (R30). -/
  | timelineSet (h : HostId)
  /-- TIMELINE_STEP (R31). -/
  | timelineStep (h : HostId)
  /-- TIMELINE_ADJUST (R27). -/
  | timelineAdjust (h : HostId)
  /-- GRID_DEFINE (R36). -/
  | gridDefine (h : HostId)
  /-- CUE_ARM (R39). -/
  | cueArm (h : HostId)
  /-- CUE_DISARM (R41). -/
  | cueDisarm (h : HostId)
  /-- CUE_QUERY (R38). -/
  | cueQuery (h : HostId)
  /-- FLOW_CREATE (R269). -/
  | flowCreate (h : HostId)
  /-- FLOW_DELETE (R279). -/
  | flowDelete (h : HostId)
  /-- FLOW_ENABLE (R271). -/
  | flowEnable (h : HostId)
  /-- FLOW_DISABLE (R279). -/
  | flowDisable (h : HostId)
  /-- FLOW_RESTART (R278). -/
  | flowRestart (h : HostId)
  /-- FLOW_SOURCE_SWITCH (R293). -/
  | flowSourceSwitch (h : HostId)
  /-- FLOW_QUERY (R353). -/
  | flowQuery (h : HostId)
  /-- PORT_BLOCK_SET (R309). -/
  | portBlockSet (h : HostId)
  /-- PORT_ENABLE (R311). -/
  | portEnable (h : HostId)
  /-- PORT_DISABLE (R311). -/
  | portDisable (h : HostId)
  /-- SDI_PORT_SET (R315). -/
  | sdiPortSet (h : HostId)
  /-- LANE_CONFIGURE (R300). -/
  | laneConfigure (h : HostId)
  /-- POOL_CLASS_DEFINE (R216). -/
  | poolClassDefine (h : HostId)
  /-- BUFFER_ALLOC (R218). -/
  | bufferAlloc (h : HostId)
  /-- BUFFER_FREE (R217). -/
  | bufferFree (h : HostId)
  /-- BUFFER_MIGRATE (R220). -/
  | bufferMigrate (h : HostId)
  /-- BUFFER_QUERY (R353). -/
  | bufferQuery (h : HostId)
  /-- POOL_EXCLUDE (R220). -/
  | poolExclude (h : HostId)
  /-- POOL_EXCLUDE_LIFT (R220). -/
  | poolExcludeLift (h : HostId)
  /-- APERTURE_MAP (R224). -/
  | apertureMap (h : HostId)
  /-- APERTURE_UNMAP (R224). -/
  | apertureUnmap (h : HostId)
  /-- APERTURE_QUERY (R226). -/
  | apertureQuery (h : HostId)
  /-- QUEUE_SETUP (R111). -/
  | queueSetup (h : HostId)
  /-- QUEUE_QUERY (R131). -/
  | queueQuery (h : HostId)
  /-- QUEUE_WINDOW_MAP (R128). -/
  | queueWindowMap (h : HostId)
  /-- QUEUE_WINDOW_UNMAP (R128). -/
  | queueWindowUnmap (h : HostId)
  /-- HBM_MAP_SET (R231). -/
  | hbmMapSet (h : HostId)
  /-- HBM_QOS_SET (R232). -/
  | hbmQosSet (h : HostId)
  /-- HBM_SR_SET (R237). -/
  | hbmSrSet (h : HostId)
  /-- HBM_RETRAIN (R240). -/
  | hbmRetrain (h : HostId)
  /-- HBM_RETRAIN_RUN (R240). -/
  | hbmRetrainRun (p : ChanId)
  /-- HBM_RETRAIN_DONE (R240). -/
  | hbmRetrainDone (p : ChanId) (ok : Bool) (spares : BitVec 8)
  /-- SCRIM_REGION_SET (R262). -/
  | scrimRegionSet (h : HostId)
  /-- SCRIM_KEY_ROLL (R258). -/
  | scrimKeyRoll (h : HostId)
  /-- SCRIM_SHARE_SET (R260). -/
  | scrimShareSet (h : HostId)
  /-- ROW_LOAD (R152). -/
  | rowLoad (h : HostId)
  /-- ROW_LOAD_DONE (R152). -/
  | rowLoadDone (r : RowId)
  /-- ROW_CONFIGURE (R178). -/
  | rowConfigure (h : HostId)
  /-- ROW_RESET (R182). -/
  | rowReset (h : HostId)
  /-- ENGINE_RESET (R182). -/
  | engineReset (h : HostId)
  /-- TASK_ENTRY_SET (R184). -/
  | taskEntrySet (h : HostId)
  /-- TASK_ENTRY_CLEAR (R184). -/
  | taskEntryClear (h : HostId)
  /-- TASK_ENTRY_RETRY (R198). -/
  | taskEntryRetry (h : HostId)
  /-- TASK_ENTRY_QUERY (R183). -/
  | taskEntryQuery (h : HostId)
  /-- SCHED_TICK_SET (R49). -/
  | schedTickSet (h : HostId)
  /-- MODE_SET_HOLD (R429). -/
  | modeSetHold (h : HostId)
  /-- MODE_SET_RUN (R432). -/
  | modeSetRun (h : HostId)
  /-- MEM_POWER_SET (R100). -/
  | memPowerSet (h : HostId)
  /-- MEM_COLUMN_STATE_CHANGE (R100). -/
  | memColumnStateChange (m : MeadowId)
  /-- MEM_COLUMN_ON_COMPLETE (R100). -/
  | memColumnOnComplete (m : MeadowId)
  /-- CLOCK_SWITCH (R411). -/
  | clockSwitch (h : HostId)
  /-- CLOCK_SWITCH_PREF (R402). -/
  | clockSwitchPref (h : HostId)
  /-- CLOCK_SWITCH_COMPLETE (R411). -/
  | clockSwitchComplete (g : GclkId) (forced : Bool)
  /-- CLOCK_GATE (R413). -/
  | clockGate (h : HostId)
  /-- CLOCK_UNGATE (R414). -/
  | clockUngate (h : HostId)
  /-- CLOCK_GATE_CLOSED (R414). -/
  | clockGateClosed (code : BitVec 16)
  /-- LOOP_CONFIGURE (R406). -/
  | loopConfigure (h : HostId)
  /-- FABRIC_LOOP_LOCK (R409). -/
  | fabricLoopLock (l : LoopId)
  /-- FREQ_MEASURE (R416). -/
  | freqMeasure (h : HostId)
  /-- SCRUB_CONTROL (R389). -/
  | scrubControl (h : HostId)
  /-- SCRUB_CONTROL_RESUME (R389). -/
  | scrubControlResume (h : HostId)
  /-- SCRUB_QUERY (R396). -/
  | scrubQuery (h : HostId)
  /-- LANE_CALIBRATE (R302). -/
  | laneCalibrate (h : HostId)
  /-- LANE_CALIBRATION_DONE (R302). -/
  | laneCalibrationDone (l : LaneId) (ok : Bool) (eye : BitVec 8)
  /-- LANE_SELFTEST (R304). -/
  | laneSelftest (h : HostId)
  /-- LANE_SELFTEST_DONE (R304). -/
  | laneSelftestDone (l : LaneId) (bits errors : BitVec 64) (eye : BitVec 8)
  /-- ROW_SELFTEST (R200). -/
  | rowSelftest (h : HostId)
  /-- ROW_SELFTEST_RUN (R200). -/
  | rowSelftestRun (r : RowId)
  /-- ROW_SELFTEST_DONE (R200). -/
  | rowSelftestDone (r : RowId) (ok : Bool)
  /-- GPIO_RETRY (R479). -/
  | gpioRetry (h : HostId)
  /-- DEBUG_CHALLENGE (R466). -/
  | debugChallenge (h : HostId)
  /-- DEBUG_UNLOCK (R467). -/
  | debugUnlock (h : HostId)
  /-- DEBUG_UNLOCK_COMPLETE (R468). -/
  | debugUnlockComplete
  /-- LIFECYCLE_ADVANCE (R446). -/
  | lifecycleAdvance (h : HostId)
  /-- LIFECYCLE_QUERY (R443). -/
  | lifecycleQuery (h : HostId)
  /-- MB_DOORBELL (R337). -/
  | mbDoorbell (h : HostId) (value : BitVec 32)
  /-- COMMAND_START (R340). -/
  | commandStart (h : HostId)
  /-- RSP_READ_SEQ_WRITE (R342). -/
  | rspReadSeqWrite (h : HostId) (value : BitVec 32)
  /-- EVT_READ_SEQ_WRITE (R347). -/
  | evtReadSeqWrite (h : HostId) (value : BitVec 32)
  /-- MB_IRQ_MASK_WRITE (R327). -/
  | mbIrqMaskWrite (h : HostId) (value : BitVec 32)
  /-- TL_SEC_READ (R328). -/
  | tlSecRead (h : HostId)
  /-- TL_STATUS_CLEAR (R328). -/
  | tlStatusClear (h : HostId) (value : BitVec 32)
  /-- REGISTER_WRITE (R7). -/
  | registerWrite (h : HostId) (off : BitVec 24) (len : Nat) (acc : RegAccess)
  /-- QUEUE_WINDOW_PUSH (R126). -/
  | queueWindowPush (h : HostId) (n : WindowId) (prio : BitVec 2) (data : BitVec 64)
  /-- QUEUE_WINDOW_POP (R127). -/
  | queueWindowPop (h : HostId) (n : WindowId) (value : BitVec 64)
  /-- BAR2_WRITE (R225). -/
  | bar2Write (h : HostId) (addr : BitVec 36) (data : List Byte) (be : List Bool)
  /-- BAR2_READ (R225). -/
  | bar2Read (h : HostId) (addr : BitVec 36) (len : Nat)
  /-- UNIT_ACCESS_TIMEOUT (R331). -/
  | unitAccessTimeout (h : HostId) (read : Bool)
  /-- PCIE_CONFIG_REQUEST (R321). -/
  | pcieConfigRequest (n : Fin 4) (reg : BitVec 10) (write : Option (BitVec 32))
  /-- HOST_LINK_RESET (R322). -/
  | hostLinkReset (n : Fin 4) (d3hot : Bool)
  /-- SMB_SET_POINTER (R335). -/
  | smbSetPointer (msg : SmbMsg) (pecOk : Bool)
  /-- SMB_WRITE (R335). -/
  | smbWrite (bytes : List Byte) (pecOk : Bool)
  /-- SMB_READ (R335). -/
  | smbRead (count : Nat) (pecOk : Bool)
  /-- HERITAGE_DATA_READ (R483). -/
  | heritageDataRead (h : HostId) (k : Fin 8)
  /-- HERITAGE_DATA_WRITE (R483). -/
  | heritageDataWrite (h : HostId) (k : Fin 8) (word : BitVec 13)
  /-- UF_ERASE_PAGE (R484). -/
  | ufErasePage (h : HostId) (page : BitVec 8)
  /-- UF_PROGRAM_PAGE (R484). -/
  | ufProgramPage (h : HostId) (page : BitVec 8)
  /-- UF_OPERATION_DONE (R484). -/
  | ufOperationDone
  /-- CUE_TL_MARK (R42). -/
  | cueTlMark (k : CueKey)
  /-- CUE_FLOW_SOURCE_SWITCH (R293). -/
  | cueFlowSourceSwitch (k : CueKey)
  /-- CUE_FLOW_ENABLE (R42). -/
  | cueFlowEnable (k : CueKey)
  /-- CUE_FLOW_DISABLE (R42). -/
  | cueFlowDisable (k : CueKey)
  /-- CUE_RECOAT_SWAP (R384). -/
  | cueRecoatSwap (k : CueKey)
  /-- CUE_FABRIC_EVENT (R507). -/
  | cueFabricEvent (k : CueKey)
  /-- CUE_QUEUE_BANK_SWAP (R114). -/
  | cueQueueBankSwap (k : CueKey)
  /-- CUE_TASK_RELEASE (R185). -/
  | cueTaskRelease (k : CueKey)
  /-- CUE_HOST_EVENT (R42). -/
  | cueHostEvent (k : CueKey)
  /-- FABRIC_EVENT_DELIVERY (R507). -/
  | fabricEventDelivery (m : MeadowId)
  /-- RECOAT_SWAP_EDGE (R384). -/
  | recoatSwapEdge (m : MeadowId)
  /-- SWAP_FORCED (R386). -/
  | swapForced (m : MeadowId)
  /-- MASKING_RELEASE (R384). -/
  | maskingRelease (m : MeadowId)
  /-- GATE_HELD_REQUEST_TIMEOUT (R214). -/
  | gateHeldRequestTimeout (m : MeadowId)
  /-- HOLD_WAKE_TIMER (R432). -/
  | holdWakeTimer
  /-- SKEW_COMPARE (R26). -/
  | skewCompare
  /-- PTP_MESSAGE (R27). -/
  | ptpMessage (b : BlockId) (msg : PtpMsg)
  /-- PENDING_STEP_APPLY (R31). -/
  | pendingStepApply
  /-- PPS_IN_EDGE (R27). -/
  | ppsInEdge
  /-- PTP_SYNC_TIMEOUT (R502). -/
  | ptpSyncTimeout (b : BlockId)
  /-- ANNOUNCE_RECEIPT_TIMEOUT (R502). -/
  | announceReceiptTimeout (b : BlockId)
  /-- PPS_LOSS_TIMEOUT (R27). -/
  | ppsLossTimeout
  /-- HOST_DISCIPLINE_TIMEOUT (R27). -/
  | hostDisciplineTimeout
  /-- ROOT_REFERENCE_LOST (R403). -/
  | rootReferenceLost
  /-- ROOT_COAST (R403). -/
  | rootCoast
  /-- ROOT_RELOCK (R404). -/
  | rootRelock
  /-- COAST_TRIM (R402). -/
  | coastTrim
  /-- ROOT_LOOP_LOCK (R402). -/
  | rootLoopLock
  /-- SOURCE_DEAD (R401). -/
  | sourceDead (src : BitVec 8)
  /-- SOURCE_READY (R400). -/
  | sourceReady (src : BitVec 8)
  /-- FAST_OSC_STOP (R398). -/
  | fastOscStop
  /-- FABRIC_LOOP_REF_LOST (R408). -/
  | fabricLoopRefLost (l : LoopId)
  /-- FABRIC_LOOP_RELOCK (R408). -/
  | fabricLoopRelock (l : LoopId)
  /-- DELAY_LIST_TICK (R48). -/
  | delayListTick (hh : HeathId)
  /-- OPERAND_WRITE (R186). -/
  | operandWrite (src : OpSource) (n : EntryId) (slot : Fin 4) (data : BitVec 64)
  /-- TASK_READINESS_EVAL (R188). -/
  | taskReadinessEval (n : EntryId)
  /-- TASK_DISPATCH (R191). -/
  | taskDispatch (hh : HeathId)
  /-- TASK_START (R148). -/
  | taskStart (e : EngineId)
  /-- TASK_COMMIT (R195). -/
  | taskCommit (e : EngineId)
  /-- COMMIT_BUFFER_DELIVERY (R196). -/
  | commitBufferDelivery (hh : HeathId) (place : Nat)
  /-- ENGINE_WATCHDOG_EXPIRY (R178). -/
  | engineWatchdogExpiry (e : EngineId)
  /-- TASK_ABORT_COMPLETE (R179). -/
  | taskAbortComplete (e : EngineId)
  /-- HEDGEROW_TRANSFER_END (R175). -/
  | hedgerowTransferEnd (e : EngineId) (place : Nat)
  /-- ANOP (R164). -/
  | opAnop (e : EngineId)
  /-- CMAC2 (R164). -/
  | opCmac2 (e : EngineId)
  /-- CDOT (R164). -/
  | opCdot (e : EngineId)
  /-- XMAC2 (R164). -/
  | opXmac2 (e : EngineId)
  /-- XDOT (R164). -/
  | opXdot (e : EngineId)
  /-- RND2 (R162). -/
  | opRnd2 (e : EngineId)
  /-- XRND2 (R162). -/
  | opXrnd2 (e : EngineId)
  /-- ACLR (R164). -/
  | opAclr (e : EngineId)
  /-- AMOV (R164). -/
  | opAmov (e : EngineId)
  /-- AADD (R164). -/
  | opAadd (e : EngineId)
  /-- EXPA (R163). -/
  | opExpa (e : EngineId)
  /-- NORMA (R163). -/
  | opNorma (e : EngineId)
  /-- ASHR (R163). -/
  | opAshr (e : EngineId)
  /-- ADD4 (R164). -/
  | opAdd4 (e : EngineId)
  /-- SUB4 (R164). -/
  | opSub4 (e : EngineId)
  /-- BFLY (R164). -/
  | opBfly (e : EngineId)
  /-- SHL4 (R164). -/
  | opShl4 (e : EngineId)
  /-- SHRA4 (R164). -/
  | opShra4 (e : EngineId)
  /-- AND (R164). -/
  | opAnd (e : EngineId)
  /-- OR (R164). -/
  | opOr (e : EngineId)
  /-- XOR (R164). -/
  | opXor (e : EngineId)
  /-- MOV (R164). -/
  | opMov (e : EngineId)
  /-- CONJ (R164). -/
  | opConj (e : EngineId)
  /-- SWAP (R164). -/
  | opSwap (e : EngineId)
  /-- EXPW (R163). -/
  | opExpw (e : EngineId)
  /-- CMPW (R164). -/
  | opCmpw (e : EngineId)
  /-- MNOP (R165). -/
  | opMnop (e : EngineId)
  /-- LD (R165). -/
  | opLd (e : EngineId)
  /-- ST (R165). -/
  | opSt (e : EngineId)
  /-- LDH (R165). -/
  | opLdh (e : EngineId)
  /-- STH (R165). -/
  | opSth (e : EngineId)
  /-- LDL (R165). -/
  | opLdl (e : EngineId)
  /-- STL (R165). -/
  | opStl (e : EngineId)
  /-- LDB (R165). -/
  | opLdb (e : EngineId)
  /-- LDX (R173). -/
  | opLdx (e : EngineId)
  /-- STX (R173). -/
  | opStx (e : EngineId)
  /-- QPUSH (R177). -/
  | opQpush (e : EngineId)
  /-- TOKEN (R177). -/
  | opToken (e : EngineId)
  /-- CNOP (R166). -/
  | opCnop (e : EngineId)
  /-- BR (R166). -/
  | opBr (e : EngineId)
  /-- CALL (R166). -/
  | opCall (e : EngineId)
  /-- RET (R166). -/
  | opRet (e : EngineId)
  /-- REPEAT (R169). -/
  | opRepeat (e : EngineId)
  /-- LOOP (R172). -/
  | opLoop (e : EngineId)
  /-- END (R195). -/
  | opEnd (e : EngineId)
  /-- SETA (R166). -/
  | opSeta (e : EngineId)
  /-- SETM (R166). -/
  | opSetm (e : EngineId)
  /-- ADDA (R166). -/
  | opAdda (e : EngineId)
  /-- CMPA (R166). -/
  | opCmpa (e : EngineId)
  /-- MVW (R166). -/
  | opMvw (e : EngineId)
  /-- MVS (R154). -/
  | opMvs (e : EngineId)
  /-- MSV (R154). -/
  | opMsv (e : EngineId)
  /-- MVAW (R166). -/
  | opMvaw (e : EngineId)
  /-- MVWA (R166). -/
  | opMvwa (e : EngineId)
  /-- VMOV (R166). -/
  | opVmov (e : EngineId)
  /-- WMOV (R166). -/
  | opWmov (e : EngineId)
  /-- HGET (R175). -/
  | opHget (e : EngineId)
  /-- HPUT (R175). -/
  | opHput (e : EngineId)
  /-- HWAIT (R166). -/
  | opHwait (e : EngineId)
  /-- HEDGEROW_BREAD (R205). -/
  | hedgerowBread (who : Source) (tag : Nat) (handle off len : Nat)
  /-- HEDGEROW_BWRITE (R205). -/
  | hedgerowBwrite (who : Source) (tag : Nat) (handle off : Nat) (data : List Byte) (be : List Bool)
  /-- HEDGEROW_DREAD (R206). -/
  | hedgerowDread (who : Source) (tag : Nat) (addr : BitVec 56) (len : Nat)
  /-- HEDGEROW_DWRITE (R206). -/
  | hedgerowDwrite (who : Source) (tag : Nat) (addr : BitVec 56) (data : List Byte) (be : List Bool)
  /-- HEDGEROW_QPUSH (R124). -/
  | hedgerowQpush (who : Poster) (q : QueueId) (prio : BitVec 2) (data : BitVec 64)
  /-- HEDGEROW_TOKEN (R205). -/
  | hedgerowToken (who : Poster) (n : EntryId) (slot : Fin 4) (data : BitVec 64)
  /-- HEDGEROW_QPEEK (R505). -/
  | hedgerowQpeek (who : Source) (tag : Nat) (q : QueueId)
  /-- HEDGEROW_QPOP (R505). -/
  | hedgerowQpop (who : Source) (tag : Nat) (q : QueueId) (seq : BitVec 16)
  /-- HEDGEROW_RESPONSE (R207). -/
  | hedgerowResponse (who : Source) (tag : Nat)
  /-- HEDGEROW_TIMEOUT (R208). -/
  | hedgerowTimeout (who : Source) (tag : Nat)
  /-- CREDIT_RETURN_MESSAGE (R124). -/
  | creditReturnMessage (q : QueueId) (slot : Fin 4)
  /-- HANDLE_TRANSLATION_MISS (R217). -/
  | handleTranslationMiss (who : Source) (handle : Nat)
  /-- HEDGEROW_LINK_RETRY (R203). -/
  | hedgerowLinkRetry (edge : Fin 3) (n : Fin 16) (ok : Bool)
  /-- HEDGEROW_LINK_RETIRE (R204). -/
  | hedgerowLinkRetire (edge : Fin 3) (n : Fin 16)
  /-- GATE_REQUEST_ISSUE (R211). -/
  | gateRequestIssue (m : MeadowId) (req : GateIssue)
  /-- GATE_TARGET_REQUEST (R211). -/
  | gateTargetRequest (m : MeadowId) (who : Source) (peek write : Bool) (off : BitVec 18) (data : List Byte) (be : List Bool) (tag : Nat)
  /-- GATE_TARGET_RESPONSE (R211). -/
  | gateTargetResponse (m : MeadowId) (status : BitVec 3) (data : List Byte)
  /-- SKIM_PORT_ACCESS (R89). -/
  | skimPortAccess (k : SkimId) (a b : Option PortIn)
  /-- SCREED_PORT_ACCESS (R93). -/
  | screedPortAccess (k : ScreedId) (a b : Option PortIn)
  /-- TROWEL_SLICE_UPDATE (R139). -/
  | trowelSliceUpdate (m : MeadowId) (sw : Fin 64) (ins : List FabIn)
  /-- FABRIC_QUEUE_PUSH (R117). -/
  | fabricQueuePush (k : SkimId) (q : Fin 8) (prio : BitVec 2) (ins : List FabIn)
  /-- FABRIC_QUEUE_POP (R121). -/
  | fabricQueuePop (k : SkimId) (rsel : Fin 8) (pop : Bool)
  /-- FABRIC_CREDIT_REPORT (R118). -/
  | fabricCreditReport (k : SkimId)
  /-- QUEUE_AUTO_SWAP (R114). -/
  | queueAutoSwap (q : QueueId)
  /-- QUEUE_FORWARD_OFFER (R125). -/
  | queueForwardOffer (q : QueueId)
  /-- IO_DELAY_STEP (R477). -/
  | ioDelayStep (b : BankId) (p : PinId) (inc dec : Bool)
  /-- ETHERNET_FRAME_RECEIVE (R310). -/
  | ethernetFrameReceive (b : BlockId) (p : Fin 8) (fr : Frame)
  /-- INGRESS_PACKET (R272). -/
  | ingressPacket (b : BlockId) (p : Fin 8) (pkt : Packet)
  /-- MERGE_WAIT_EXPIRY (R274). -/
  | mergeWaitExpiry (c : CtxId) (upTo : Nat)
  /-- PATH_LOSS_TIMEOUT (R277). -/
  | pathLossTimeout (c : CtxId) (pathB : Bool)
  /-- DESCRIPTOR_PUSH (R286). -/
  | descriptorPush (c : CtxId)
  /-- EGRESS_PACKET_FORM (R289). -/
  | egressPacketForm (c : CtxId)
  /-- EGRESS_PACKET_SEND (R289). -/
  | egressPacketSend (c : CtxId)
  /-- SDI_INPUT_LINE (R313). -/
  | sdiInputLine (j : SdiId) (line : SdiLine)
  /-- SDI_OUTPUT_LINE (R314). -/
  | sdiOutputLine (j : SdiId)
  /-- ETH_LINK_DOWN (R311). -/
  | ethLinkDown (b : BlockId) (p : Fin 8) (hiBer : Bool)
  /-- ETH_LINK_UP (R311). -/
  | ethLinkUp (b : BlockId) (p : Fin 8) (fec : BitVec 2)
  /-- LANE_LOSS_OF_SIGNAL (R307). -/
  | laneLossOfSignal (l : LaneId)
  /-- LANE_SIGNAL_RETURN (R307). -/
  | laneSignalReturn (l : LaneId) (inverted : Bool)
  /-- HBM_REFRESH (R235). -/
  | hbmRefresh (p : ChanId)
  /-- HBM_CALIBRATION (R236). -/
  | hbmCalibration (p : ChanId)
  /-- HBM_TEMPERATURE_READ (R235). -/
  | hbmTemperatureRead (st : StackId) (celsius : Int)
  /-- HBM_PATROL_READ (R246). -/
  | hbmPatrolRead (p : ChanId) (ups : List (Nat × LineUpset))
  /-- HBM_SELF_REFRESH_ENTRY (R237). -/
  | hbmSelfRefreshEntry (p : ChanId)
  /-- HBM_SELF_REFRESH_EXIT (R237). -/
  | hbmSelfRefreshExit (p : ChanId)
  /-- HBM_CE_INTERVAL (R244). -/
  | hbmCeInterval
  /-- HBM_TRAINING_DONE (R239). -/
  | hbmTrainingDone (failed : List ChanId) (spares : List (ChanId × BitVec 8))
  /-- MIGRATION_STEP (R221). -/
  | migrationStep (handle : Nat)
  /-- MIGRATION_COMPLETE (R221). -/
  | migrationComplete (handle : Nat)
  /-- SCRIM_FILL_GRANULE (R255). -/
  | scrimFillGranule (handle : Nat)
  /-- SCRIM_COUNTER_FOLD (R257). -/
  | scrimCounterFold (r : RegionId) (p : Fin 16)
  /-- SCRIM_ROLL_START (R258). -/
  | scrimRollStart (r : RegionId)
  /-- SCRIM_ROLL_STEP (R258). -/
  | scrimRollStep (r : RegionId) (p : Fin 16)
  /-- SCRIM_ROLL_DONE (R259). -/
  | scrimRollDone (r : RegionId)
  /-- SCRIM_KEY_TABLE_ERROR (R264). -/
  | scrimKeyTableError (r : RegionId) (both : Bool)
  /-- SCRIM_COUNTER_ERROR (R263). -/
  | scrimCounterError (r : RegionId) (leaf : Option (Fin 16))
  /-- SCRIM_POISON_WALK_STEP (R264). -/
  | scrimPoisonWalkStep (r : RegionId)
  /-- SCRUB_FRAME_READ (R390). -/
  | scrubFrameRead (hh : HeathId) (read : FrameRead)
  /-- SCRUB_STORE_REBUILD (R391). -/
  | scrubStoreRebuild (hh : HeathId) (verified : Bool)
  /-- SCRUB_UNDERCOAT_TURN (R392). -/
  | scrubUndercoatTurn (hh : HeathId) (reads : List (Fin 3072 × FrameRead))
  /-- IMAGE_HEADER (R359). -/
  | imageHeader
  /-- BOOT_POINTER_TABLE (R369). -/
  | bootPointerTable
  /-- IMAGE_BLOCK (R362). -/
  | imageBlock
  /-- RECORD_PAD (R363). -/
  | recordPad
  /-- RECORD_FRAMES (R364). -/
  | recordFrames (badVerify : List Nat)
  /-- RECORD_REPEAT (R364). -/
  | recordRepeat (badVerify : List Nat)
  /-- RECORD_ZERO (R364). -/
  | recordZero (badVerify : List Nat)
  /-- RECORD_MEM (R365). -/
  | recordMem
  /-- RECORD_ESSMAP (R364). -/
  | recordEssmap
  /-- RECORD_END (R364). -/
  | recordEnd
  /-- FULL_LOAD_FAILED (R374). -/
  | fullLoadFailed
  /-- GLOBAL_HOLD_RELEASE (R66). -/
  | globalHoldRelease
  /-- CHAIN_LINK_TRAINED (R372). -/
  | chainLinkTrained (upstream : BitVec 4)
  /-- CHAIN_TIMEOUT (R373). -/
  | chainTimeout
  /-- CHAIN_STALL_TIMEOUT (R373). -/
  | chainStallTimeout
  /-- POWER_ON_RESET (R422). -/
  | powerOnReset
  /-- DEBUG_POWER_ON_RESET (R422). -/
  | debugPowerOnReset
  /-- RAIL_GOOD (R418). -/
  | railGood (r : RailId)
  /-- RAIL_FAIL (R421). -/
  | railFail (r : RailId)
  /-- VBAT_LOW (R360). -/
  | vbatLow
  /-- CFG_PROG_N_LOW (R356). -/
  | cfgProgNLow
  /-- WARDEN_WATCHDOG_EXPIRY (R425). -/
  | wardenWatchdogExpiry
  /-- DIE_EDGE_TRAINED (R434). -/
  | dieEdgeTrained (edge : Fin 3) (anyLink : Bool)
  /-- STARTUP_LANE_CAL_DONE (R305). -/
  | startupLaneCalDone (failed : List LaneId)
  /-- HOLD_ENTRY_COMPLETE (R429). -/
  | holdEntryComplete
  /-- HOLD_WAKE_N_LOW (R432). -/
  | holdWakeNLow
  /-- HOLD_EXIT_RESUME (R432). -/
  | holdExitResume
  /-- HOLD_EXIT_RAIL_TIMEOUT (R433). -/
  | holdExitRailTimeout
  /-- HOLD_CUE_DISARM (R433). -/
  | holdCueDisarm (k : CueKey)
  /-- TAMPER_N_ALARM (R448). -/
  | tamperNAlarm
  /-- SUPPLY_GLITCH_ALARM (R448). -/
  | supplyGlitchAlarm (core : Bool)
  /-- DIE_OVERTEMP_ALARM (R448). -/
  | dieOvertempAlarm (hh : HeathId)
  /-- LOCKDOWN_CORE_STEPS (R506). -/
  | lockdownCoreSteps
  /-- DENIED_WINDOW_END (R442). -/
  | deniedWindowEnd (kind index res : Nat)
  /-- GPIO_SHORT_DETECT (R479). -/
  | gpioShortDetect (b : BankId) (p : PinId)
  /-- CHALLENGE_LAPSE (R466). -/
  | challengeLapse
  /-- EXTEST (R455). -/
  | extest (pins scan : List Bool)
  /-- IDCODE (R2). -/
  | idcode
  /-- SAMPLE_PRELOAD (R454). -/
  | samplePreload (pins scan : List Bool)
  /-- CLAMP (R454). -/
  | clamp
  /-- HIGHZ (R454). -/
  | highz
  /-- EXTEST_PULSE (R308). -/
  | extestPulse (pins scan : List Bool)
  /-- EXTEST_TRAIN (R308). -/
  | extestTrain (pins scan : List Bool)
  /-- DBG_STATUS (R456). -/
  | dbgStatus
  /-- DBG_CHALLENGE (R466). -/
  | dbgChallenge
  /-- DBG_RESPONSE (R467). -/
  | dbgResponse (block : List Byte)
  /-- DBG_ACCESS_READ (R457). -/
  | dbgAccessRead (scan : DbgScan)
  /-- DBG_ACCESS_WRITE (R457). -/
  | dbgAccessWrite (addr data : BitVec 64)
  /-- DBG_ACCESS_READ_INC (R457). -/
  | dbgAccessReadInc (addr : BitVec 64)
  /-- DBG_ACCESS_WRITE_INC (R457). -/
  | dbgAccessWriteInc (addr data : BitVec 64)
  /-- KEY_PROGRAM (R470). -/
  | keyProgram (target : BitVec 8) (key : BitVec 256)
  /-- BYPASS (R454). -/
  | bypass
  /-- TRST_N_RESET (R453). -/
  | trstNReset
  /-- ENGINE_HALT_REQUEST (R461). -/
  | engineHaltRequest (e : EngineId)
  /-- ENGINE_HALTED (R461). -/
  | engineHalted (e : EngineId)
  /-- HALT_FORCE_TIMEOUT (R174). -/
  | haltForceTimeout (e : EngineId)
  /-- ENGINE_RESUME (R461). -/
  | engineResume (e : EngineId)
  /-- ENGINE_STEP (R462). -/
  | engineStep (e : EngineId)
  /-- DBG_HALT_N_LOW (R461). -/
  | dbgHaltNLow
  /-- WARDEN_HALT (R465). -/
  | wardenHalt
  /-- WARDEN_RESUME (R465). -/
  | wardenResume
  /-- FABRIC_CLOCK_EDGE (R54). -/
  | fabricClockEdge (g : GclkId) (rise : Bool) (ins : List FabIn) (ups : List FrameUpset)
  /-- FABRIC_RESET_RELEASE (R424). -/
  | fabricResetRelease
  /-- SCRATCHPAD_WIPE_DONE (R105). -/
  | scratchpadWipeDone (nonZero : Bool)
  /-- FREQ_MEASURE_DONE (R416). -/
  | freqMeasureDone (src : BitVec 8) (edges : Nat)
  /-- LIFECYCLE_FUSES_PROGRAMMED (R446). -/
  | lifecycleFusesProgrammed
  /-- KEY_PROGRAM_DONE (R470). -/
  | keyProgramDone
  /-- PCIE_LINK_UP (R321). -/
  | pcieLinkUp (n : Fin 4) (gen : BitVec 4) (width : BitVec 5) (flit : Bool)
  /-- SDI_INPUT_LOCK (R313). -/
  | sdiInputLock (j : SdiId) (std : BitVec 3) (frac : Bool)
  /-- HERITAGE_SERIAL_BYTE (R483). -/
  | heritageSerialByte (k : Fin 8) (ev : SerialEvent)
  /-- SMB_ALERT_RESPONSE (R335). -/
  | smbAlertResponse
deriving DecidableEq, Repr

end Sys2Proof
end

