-- ==== Sys2Proof/Decode.lean ====
section
/-! DEFINITION. The command a word spells: the table gives its rows no bits, so no word spells one. -/

namespace Sys2Proof

/-- No row of spec/opcode_table.json has bits: every word is refused. -/
def decodeTableWord (_nbits _w : Nat) : Option Instr := none

end Sys2Proof
end

