-- ==== Sys2Proof/Machine/State.lean ====
section
/-! DEFINITION. The state of the block: every piece of state the spec gives it, as plain data, and `State.reset`.
Each field's docstring reads `name | width | rule and file | reset`. `DC7` marks a reset value the spec does not give
(DESIGN CHOICE zero or empty, notes/assumptions/7.md). -/

namespace Sys2Proof.Machine

/-! ## Memories -/

/-- A byte memory in canonical form: rising addresses, no cell equal to `dflt`. -/
structure Mem where
  /-- cells held | 8 bits each | R94 05, R149 08, R228 11 | none listed -/
  cells : List Host.Cell := []
  /-- what an unlisted byte reads as | 8 | R98 05, R255 12 | 0x00 (user flash and boot flash 0xFF, DC8) -/
  dflt : Byte := 0
deriving DecidableEq, Repr

/-- The check-code condition of a memory lane, word or line (R97, R151, R222, R245). -/
inductive Mark where
  | ok | bad | poison
deriving DecidableEq, Repr

/-! ## Timeline and cues (spec/02_timeline_and_cues.md) -/

inductive TlMode where
  | freerun | acquiring | locked | holdover
deriving DecidableEq, Repr

structure PtpPort where
  /-- a master is selected on the port | 1 | R502 02 | false -/
  master : Bool := false
  /-- logMessageInterval of the last valid Sync | 8 signed | R502 02 | 0 DC7 -/
  syncLog : Int := 0
  /-- logMessageInterval of the last Announce | 8 signed | R502 02 | 0 DC7 -/
  annLog : Int := 0
  /-- Sync loss condition holds | 1 | R27 02 | true (no master, R502) -/
  syncLost : Bool := true
  /-- Announce loss condition holds | 1 | R27 02 | true (no master, R502) -/
  annLost : Bool := true
  /-- last offset measured, ns | signed | R28 02 | none -/
  offset : Option Int := none
  /-- receive time, ns, of a two-step Sync awaiting its Follow_Up | - | R27 02 | none -/
  syncRx : Option Int := none
  /-- Sync offset half (t2 - t1), ns | signed | R27 02 | none -/
  t2t1 : Option Int := none
  /-- transmit time, ns, of the outstanding Delay_Req | - | R27 02 | none -/
  delayTx : Option Int := none
  /-- mean path delay, ns | - | R27 02 | none -/
  delay : Option Int := none
deriving DecidableEq, Repr

structure Grid where
  /-- RATE_NUM | 20 | R36 02 | undefined (no grid) -/
  num : Nat
  /-- RATE_DEN | 20 | R36 02 | undefined -/
  den : Nat
  /-- TOTAL_LINES | 14 | R36 02 | undefined -/
  lines : Nat
  /-- SWITCH_LINE | 14 | R36 02 | undefined -/
  switch1 : Nat
  /-- SWITCH_LINE2 | 14 | R36 02 | undefined -/
  switch2 : Nat
  /-- LINE_OFFSET_NS | 32 | R36 02 | undefined -/
  lineOff : Nat
  /-- PHASE_NS | 64 signed | R36 02 | undefined -/
  phase : Int
deriving DecidableEq, Repr

structure Cue where
  /-- ARMED | 1 | R38 02 | 0 -/
  armed : Bool := false
  /-- generation count of the slot | 8 | R38 02, R41 | 0 DC7 -/
  gen : BitVec 8 := 0
  /-- WORLD: the arming host's world | 1 | R38 02 | 0 -/
  world : Bool := false
  /-- HOST | 3 | R38 02 | 0 -/
  host : Nat := 0
  /-- the RW fields of the entry as CUE_ARM gave them | 256 | R38 02 | 0 -/
  entry : BitVec 256 := 0
  /-- next launch time, in 2^-32 ns | 110 | R40 02 | 0 -/
  launch : Nat := 0
  /-- frame of the next launch, grid mode | 44 | R40 02 | 0 -/
  frame : Nat := 0
  /-- repeats still to come | 16 | R38 02 | 0 -/
  left : Nat := 0
  /-- the slot's previous generation ended by its last launch, not by a disarm | 1 | R41 02 | false -/
  launched : Bool := false
  /-- edge count at the latest launch of a cue that repeats | - | R41 02 | none -/
  ran : Option Nat := none
deriving DecidableEq, Repr

structure TickGen where
  /-- period P in ns | 20 | R48 02 | 1,000 -/
  period : Nat := 1000
  /-- phase counter, 2^-32 ns | - | R48 02 | 0 DC7 -/
  phase : Nat := 0
  /-- the next edge gives a tick: the counter had passed a new period | 1 | R49 02 | false -/
  force : Bool := false
  /-- SCHED_TICK_COUNT | 32 | R201 09 | 0 -/
  count : BitVec 32 := 0
deriving DecidableEq, Repr

structure Timeline where
  /-- master count TL_SEC/TL_NS/TL_FRAC as one number of 2^-32 ns | 48+30+32 | R23 02 | 0 DC7 -/
  now : Nat := 0
  /-- replica of heath h less the master, 2^-32 ns | signed | R25 02 | 0 (aligned) -/
  skew : Tab Int := {}
  /-- TL_INCR | 36 | R24 02, R328 15 | 0x2_8000_0000 -/
  incr : BitVec 36 := 0x280000000
  /-- servo frequency adjustment, 2^-16 ppm | 32 signed | R28 02 | 0 (none, R503) -/
  adj : Int := 0
  /-- source selected: 0 none, 1 PTP, 2 1PPS, 3 host | 2 | R27 02, R353 16 | 0 -/
  sel : Nat := 0
  /-- primary port block | 2 | R27 02 | 0 DC7 -/
  primary : Nat := 0
  /-- secondary port block | 2 | R27 02 | 0 DC7 -/
  secondary : Nat := 0
  /-- secondary used | 1 | R28 02 | false (discipline off, R422) -/
  secUsed : Bool := false
  /-- automatic step enabled | 1 | R30 02 | false (discipline off) -/
  autoStep : Bool := false
  /-- PTP domain | 7 | R27 02 | 127 -/
  domain : BitVec 7 := 127
  /-- TL_STATUS.SOURCE | 4 | R29 02 | 0x0 -/
  source : BitVec 4 := 0
  /-- TL_STATUS.STATE | 4 | R29 02, R503 | FREERUN -/
  state : TlMode := .freerun
  /-- consecutive measurements within 1 us | 5 | R503 02 | 0 -/
  run : Nat := 0
  /-- last offset measured, ns | signed | R348 16 | 0 DC7 -/
  lastOff : Int := 0
  /-- STEP_PENDING: the remaining automatic step, 2^-32 ns | 1 + signed | R31 02 | none -/
  stepPend : Option Int := none
  /-- TIMELINE_ADJUST given while an automatic step waits, 2^-16 ppm | 32 signed | R31 02 | none -/
  adjNext : Option Int := none
  /-- sum of the increments of all edges so far, which no step touches; ages are kept by it, 2^-32 ns | - | R24 02, R233 11 | 0 DC7 -/
  up : Nat := 0
  /-- STEPPED | 1 | R29 02 | 0 -/
  stepped : Bool := false
  /-- SKEW_FAULT | 1 | R29 02 | 0 -/
  skewFault : Bool := false
  /-- PTP state of port block b | - | R28 02 | no master -/
  ports : Tab PtpPort := {}
  /-- time of the last PPS edge | - | R27 02 | none -/
  ppsLast : Option Nat := none
  /-- frame grids 0-15 | - | R36 02, R422 20 | undefined -/
  grids : Tab (Option Grid) := {}
  /-- cue slot 4,096h + i | 256 each | R38 02 | free -/
  cues : Tab Cue := {}
  /-- delay-list tick generator of heath h | - | R48 02 | P = 1 us -/
  ticks : Tab TickGen := {}
  /-- phase of the watchdogs' 1 us generator, 2^-32 ns | - | R178 08 | 0 DC7 -/
  wdPhase : Nat := 0
  /-- TL_SEC sampled for host n | 64 | R328 15 | 0 -/
  secLatch : Tab (BitVec 64) := {}
  /-- TL_NSFRAC of host n | 64 | R328 15 | 0 -/
  nsLatch : Tab (BitVec 64) := {}
deriving DecidableEq, Repr

/-! ## Configuration of the fabric: what the frames of a plane mean (03, 04, 05, 06, 07, 18, 23).
The spec gives the fields and not their place in a frame: `Config.decodeFrames` is uninterpreted (log 5). -/

/-! Places and names of the routing (04). Units are numbered within their meadow: tussock 32 sward + t, cell
1,024 sward + 32 t + c, tuft 128 sward + 4 t + c div 8. -/

/-- A direction in the meadow and heath grids: north is the direction of rising rows. -/
inductive Dir where
  | north | east | south | west
deriving DecidableEq, Repr

/-- Wire classes of R71 and R72. -/
inductive WireClass where
  | l1 | l2 | l4 | l16 | w1 | w4 | w16
deriving DecidableEq, Repr

/-- A routing wire: the tussock that drives it, its class, direction and number there (R71, R72). -/
structure Wire where
  tus : Nat
  cls : WireClass
  dir : Dir
  n : Nat
deriving DecidableEq, Repr

/-- A boundary crossing by the edge of the meadow that it leaves, its plane and its number along the edge (R83). -/
structure Crossing where
  dir : Dir
  word : Bool
  n : Nat
deriving DecidableEq, Repr

/-- The outputs that a cell presents to the routing. -/
inductive CellOut where
  | ma | ho | qa | qb
deriving DecidableEq, Repr

/-- A signal that a multiplexer of a meadow can take (R61, R71, R76, R82, R83, R135, R474). -/
inductive Sig where
  | zero
  | cell (k : Nat) (o : CellOut)
  /-- CO15 or CO31 of a tussock -/
  | carryOut (t : Nat) (hi : Bool)
  /-- the end of a wire -/
  | wire (w : Wire)
  /-- the crossing that arrives at this edge of the meadow -/
  | cross (x : Crossing)
  /-- RSP0, RSP1 -/
  | spine (n : Nat)
  /-- output word of a tussock -/
  | wordOut (t : Nat)
  /-- output i of a trowel slice: tw_r_re, tw_r_im, tw_ovf_re, tw_ovf_im, tw_aovf -/
  | trowel (sward i : Nat)
  /-- lane of the read data of a skim port (2 sward + (0 A, 1 B)) -/
  | skim (port lane : Nat)
  /-- lane of the read data of a screed port (2 block + (0 A, 1 B)) -/
  | screed (port lane : Nat)
  /-- output i of an I/O cell: io_i0, io_i1, io_dly_tap[8:0], io_fault -/
  | pin (p i : Nat)
  /-- any other output of a hard unit of the meadow -/
  | hard (i : Nat)
deriving DecidableEq, Repr, Inhabited

/-- The multiplexers of a meadow (R61, R76, R135, R474). -/
inductive Mux where
  /-- L0-L5 (0-5) and X (6) of a cell -/
  | cell (k i : Nat)
  | ce (tuft : Nat)
  | sr (tuft : Nat)
  | wire (w : Wire)
  | cross (x : Crossing)
  | wordIn (t : Nat)
  /-- tw_a_re, tw_a_im, tw_b_re, tw_b_im, tw_e_re, tw_e_im -/
  | trowelWord (sward i : Nat)
  /-- tw_pre[0], tw_pre[1], tw_conj, tw_op[0], tw_op[1], tw_ksel[0], tw_ksel[1], tw_en -/
  | trowelBit (sward i : Nat)
  /-- io_o0, io_o1, io_oe, io_dly_inc, io_dly_dec of an I/O cell -/
  | pin (p i : Nat)
  /-- skx_din_L, and q_din_L in queue mode, of a skim port (2 sward + (0 A, 1 B)) -/
  | skimWord (port lane : Nat)
  /-- scx_din_L of a screed port (2 block + (0 A, 1 B)) -/
  | screedWord (port lane : Nat)
  /-- word and bit inputs of the other hard units -/
  | hardWord (i : Nat)
  | hardBit (i : Nat)
deriving DecidableEq, Repr

/-- A select field (R76) with the signal at the input that its code chooses: for a plane decoded from frames the one that the
device's wiring puts there, `Config.muxInput` of the multiplexer and the code (log 5). -/
structure SelCfg where
  /-- select code | 3 to 6 | R76 04 | 0 -/
  code : BitVec 6 := 0
  /-- the signal at the input that the code selects: what the device's wiring makes of the code | - | R61 03, R76 04 | none -/
  src : Sig := .zero
deriving DecidableEq, Repr

structure CellCfg where
  /-- TBL_MAP | 64 | R50 03 | 0 (planes EMPTY, R377) -/
  tbl : BitVec 64 := 0
  /-- FRACTURE | 1 | R50 03 | 0 -/
  fracture : Bool := false
  /-- CARRY_USE | 1 | R56 03 | 0 -/
  carryUse : Bool := false
  /-- CARRY_GSEL | 1 | R56 03 | 0 -/
  carryG : Bool := false
  /-- MA_SEL | 1 | R56 03 | 0 -/
  maSel : Bool := false
  /-- FFA_DSEL | 2 | R52 03 | 0 -/
  dselA : BitVec 2 := 0
  /-- FFB_DSEL | 2 | R52 03 | 0 -/
  dselB : BitVec 2 := 0
  /-- SEED of flip-flops A, B | 2 | R53 03 | 0 -/
  seed : Bool × Bool := (false, false)
  /-- RESVAL of A, B | 2 | R53 03 | 0 -/
  resval : Bool × Bool := (false, false)
  /-- CE_USE of A, B | 2 | R53 03 | 0 -/
  ceUse : Bool × Bool := (false, false)
  /-- SR_USE of A, B | 2 | R53 03 | 0 -/
  srUse : Bool × Bool := (false, false)
deriving DecidableEq, Repr

structure TuftCfg where
  /-- CLK_SEL | 4 | R59 03, R80 04 | 0 -/
  clkSel : BitVec 4 := 0
  /-- CLK_INV | 1 | R59 03 | 0 -/
  clkInv : Bool := false
  /-- CE_SRC | 1 | R59 03 | 0 -/
  ceSrc : Bool := false
  /-- SR_SRC | 1 | R59 03 | 0 -/
  srSrc : Bool := false
  /-- SR_INV | 1 | R59 03 | 0 -/
  srInv : Bool := false
  /-- SR_MODE: asynchronous | 1 | R59 03 | 0 -/
  srAsync : Bool := false
deriving DecidableEq, Repr

structure TussockCfg where
  /-- WO_HALF | 1 | R62 03 | 0 -/
  woHalf : Bool := false
  /-- WO_SIG | 2 | R62 03 | 0 -/
  woSig : BitVec 2 := 0
  /-- WI_L0_LO | 1 | R62 03 | 0 -/
  wiLo : Bool := false
  /-- WI_L0_HI | 1 | R62 03 | 0 -/
  wiHi : Bool := false
  /-- CI_SEL | 2 | R57 03 | 0 -/
  ciSel : BitVec 2 := 0
  /-- CI_SEL_HI | 2 | R57 03 | 0 -/
  ciSelHi : BitVec 2 := 0
deriving DecidableEq, Repr

/-- A wire register point (REG_EN, REG_CLK: R74) or a boundary register (XREG_EN, XREG_CLK, MASK_MODE: R84). -/
structure RegCfg where
  /-- REG_EN or XREG_EN | 1 | R74, R84 04 | 0 -/
  en : Bool := false
  /-- REG_CLK or XREG_CLK | 2 | R74, R84 04 | 0 -/
  clk : BitVec 2 := 0
  /-- MASK_MODE, boundary cells only | 2 | R84 04 | 0 -/
  mask : BitVec 2 := 0
deriving DecidableEq, Repr

structure QueueCfg where
  /-- Q_CAP_q, units of 16 words | 9 | R106 06 | 0 -/
  cap : BitVec 9 := 0
  /-- Q_FCRED_q, units of 16 words | 9 | R106 06 | 0 -/
  fcred : BitVec 9 := 0
  /-- Q_CONS_q | 2 | R106 06 | 0 -/
  cons : BitVec 2 := 0
  /-- Q_AUTOSWAP_q | 1 | R106 06 | 0 -/
  auto : Bool := false
deriving DecidableEq, Repr

structure PortCfg where
  /-- x_WIDTH | 2 | R87, R92 05 | 0 -/
  width : BitVec 2 := 0
  /-- x_CLK_SEL | 4 | R87, R92 05 | 0 -/
  clk : BitVec 4 := 0
  /-- x_RDW | 2 | R87 05 | 0 -/
  rdw : BitVec 2 := 0
  /-- x_OREG | 1 | R87 05 | 0 -/
  oreg : Bool := false
deriving DecidableEq, Repr

structure SkimCfg where
  /-- MODE: queue controller | 1 | R87 05 | 0 -/
  queueMode : Bool := false
  /-- port A fields | - | R87 05 | 0 -/
  a : PortCfg := {}
  /-- port B fields | - | R87 05 | 0 -/
  b : PortCfg := {}
  /-- QW_WIDTH | 2 | R106 06 | 0 -/
  qwWidth : BitVec 2 := 0
  /-- fields of queue q | - | R106 06 | 0 -/
  q : Tab QueueCfg := {}
deriving DecidableEq, Repr

structure ScreedCfg where
  /-- A_WIDTH, A_CLK_SEL | 2 + 4 | R92 05 | 0 -/
  a : PortCfg := {}
  /-- B_WIDTH, B_CLK_SEL | 2 + 4 | R92 05 | 0 -/
  b : PortCfg := {}
  /-- B_SRC | 1 | R92 05 | 0 -/
  bGate : Bool := false
deriving DecidableEq, Repr

structure TrowelCfg where
  /-- TW_MODE: fall-back | 1 | R132 07 | 0 -/
  fallback : Bool := false
  /-- TW_CLK_SEL | 4 | R132 07 | 0 -/
  clk : BitVec 4 := 0
  /-- IN_STAGE | 1 | R132 07 | 0 -/
  inStage : Bool := false
  /-- MUL_STAGE | 1 | R132 07 | 0 -/
  mulStage : Bool := false
  /-- OUT_STAGE | 1 | R132 07 | 0 -/
  outStage : Bool := false
  /-- PRE_HALF | 1 | R132 07 | 0 -/
  preHalf : Bool := false
  /-- ACC_SAT | 1 | R132 07 | 0 -/
  accSat : Bool := false
  /-- OUT_SAT | 1 | R132 07 | 0 -/
  outSat : Bool := false
  /-- RSHIFT | 6 | R132 07 | 0 -/
  rshift : BitVec 6 := 0
  /-- OUT_SEL | 2 | R132 07 | 0 -/
  outSel : BitVec 2 := 0
deriving DecidableEq, Repr

structure IoCfg where
  /-- IO_STD | 4 | R475 23 | 0 -/
  std : BitVec 4 := 0
  /-- DRIVE | 3 | R475 23 | 0 -/
  drive : BitVec 3 := 0
  /-- SLEW | 1 | R475 23 | 0 -/
  slew : Bool := false
  /-- PULL | 2 | R475 23 | 0 -/
  pull : BitVec 2 := 0
  /-- IO_CLK_SEL | 4 | R475 23 | 0 -/
  clk : BitVec 4 := 0
  /-- IREG | 2 | R475 23 | 0 -/
  ireg : BitVec 2 := 0
  /-- OREG | 2 | R475 23 | 0 -/
  oreg : BitVec 2 := 0
  /-- OINIT | 1 | R475 23 | 0 -/
  oinit : Bool := false
  /-- OEINIT | 1 | R475 23 | 0 -/
  oeinit : Bool := false
  /-- IDLY_INIT | 9 | R475 23 | 0 -/
  idly : BitVec 9 := 0
  /-- ODLY_INIT | 9 | R475 23 | 0 -/
  odly : BitVec 9 := 0
  /-- INV | 1 | R475 23 | 0 -/
  inv : Bool := false
deriving DecidableEq, Repr

/-- The personality of a meadow: the fields its plane's frames hold. Cell key 1,024 sward + 32 tussock + c, tuft key
128 sward + 4 tussock + t, tussock key 32 sward + t; I/O pin key 0-47 of the meadow's two half banks. -/
structure Personality where
  /-- cell fields | - | R50-R56 03 | 0 -/
  cells : Tab CellCfg := {}
  /-- tuft control sets | - | R59 03 | 0 -/
  tufts : Tab TuftCfg := {}
  /-- tussock fields | - | R62 03 | 0 -/
  tussocks : Tab TussockCfg := {}
  /-- select fields by multiplexer (`Mux.key`) | - | R61 03, R76 04, R135 07 | 0 -/
  sel : Tab SelCfg := {}
  /-- wire register points: 2 wire key (midpoint), 2 wire key + 1 (end) | - | R74 04 | 0 -/
  wires : Tab RegCfg := {}
  /-- boundary cells of outbound crossings (`Crossing.key`) | - | R84 04 | 0 -/
  crossings : Tab RegCfg := {}
  /-- skim blocks by sward | - | R87 05, R106 06 | 0 -/
  skims : Tab SkimCfg := {}
  /-- screed blocks 0-5 | - | R92 05 | 0 -/
  screeds : Tab ScreedCfg := {}
  /-- trowel slices by sward | - | R132 07 | 0 -/
  trowels : Tab TrowelCfg := {}
  /-- I/O cells | - | R475 23 | 0 -/
  ios : Tab IoCfg := {}
  /-- RCLK_SEL_k, k = 0-3 | 4 each | R79 04 | 0 -/
  rclkSel : Tab (BitVec 4) := {}
  /-- MG_SEL_k, k = 0-7 | 4 each | R79 04 | 0 -/
  mgSel : Tab (BitVec 4) := {}
  /-- RSP_SEL of spines 0, 1 | 2 each | R82 04 | 0 -/
  rspSel : Tab (BitVec 2) := {}
  /-- GATE_CLK_SEL | 4 | R211 10 | 0 -/
  gateClk : BitVec 4 := 0
  /-- SWAP_CLK | 4 | R383 18 | 0 -/
  swapClk : BitVec 4 := 0
  /-- HB_FABRIC[k] (0-7 controllers, 8 flash), meadow 47 | 9 | R482 23 | 0 -/
  hbFabric : BitVec 9 := 0
  /-- HB_PINS[k], meadow 47 | 8 | R482 23 | 0 -/
  hbPins : BitVec 8 := 0
deriving DecidableEq, Repr, Inhabited

structure SigEntry where
  /-- ESSMAP | 64 | R381 18 | all ones when the image gives none -/
  essmap : BitVec 64 := BitVec.allOnes 64
  /-- CRC | 32 | R381 18 | that of a frame of zeros -/
  crc : BitVec 32 := 0xB2AA7578
  /-- SRC | 2 | R381 18 | 2 (frame written zero) -/
  src : BitVec 2 := 2
  /-- BLOCK | 14 | R381 18 | 0 -/
  block : BitVec 14 := 0
  /-- OFFSET | 13 | R381 18 | 0 -/
  offset : BitVec 13 := 0
  /-- an error that the entry's 8 check bits cannot correct stands in it | 1 | R381, R390 18 | false -/
  bad : Bool := false
deriving DecidableEq, Repr

structure Plane where
  /-- data bits of frame f, 0-3,071 | 4,096 each | R363 17, R376 18 | 0 -/
  frames : Tab (BitVec 4096) := {}
  /-- signature table entry of frame f | 128 each | R381 18 | as written zero -/
  sigs : Tab SigEntry := {}
  /-- the fields the frames hold | - | R50 03 to R482 23 | 0 -/
  pers : Personality := {}
  /-- handle of the image store | 20 | R380, R382 18 | none -/
  store : Option Nat := none
  /-- the store is unreadable | 1 | R396 18 | false -/
  storeBad : Bool := false
  /-- host that issued the RECOAT_LOAD of this personality | 3 | R348 16 | none -/
  issuer : Option Nat := none
  /-- BUILD_ID of the image | 128 | R358 17 | 0 -/
  build : BitVec 128 := 0
  /-- frames now in SCRUB_FAULT | - | R391 18 | none -/
  faulty : List Nat := []
  /-- upset bits of frame f that the scrubber has not repaired | 4,096 each | R78 04, R390 18 | none -/
  flips : Tab (BitVec 4096) := {}
  /-- upset check bits of frame f, 8 for each word | 512 each | R376, R390 18 | none -/
  checks : Tab (BitVec 512) := {}
  /-- the image was loaded and no placement existed for its store | 1 | R382, R396 18 | false -/
  noStore : Bool := false
deriving DecidableEq, Repr

inductive Undercoat where
  | empty | loading | verified | previous
deriving DecidableEq, Repr

inductive ColState where
  | on | retention | off
deriving DecidableEq, Repr

inductive GateState where
  | opened | closing | gated
deriving DecidableEq, Repr

structure TrowelOps where
  /-- operands A, B, E (re, im) as sampled | 16 each | R135 07 | 0 -/
  are : BitVec 16 := 0
  aim : BitVec 16 := 0
  bre : BitVec 16 := 0
  bim : BitVec 16 := 0
  ere : BitVec 16 := 0
  eim : BitVec 16 := 0
  /-- tw_pre, tw_conj, tw_op, tw_ksel | 2+1+2+2 | R135 07 | 0 -/
  pre : BitVec 2 := 0
  conj : Bool := false
  op : BitVec 2 := 0
  ksel : BitVec 2 := 0
deriving DecidableEq, Repr

structure TrowelProd where
  /-- product parts | 56 signed each | R138 07 | 0 -/
  mre : Int := 0
  mim : Int := 0
  /-- controls carried beside the product | 2+2 | R144 07 | 0 -/
  op : BitVec 2 := 0
  ksel : BitVec 2 := 0
deriving DecidableEq, Repr

/-- A slice's registers. ACC_RE and ACC_IM join into ACC in fall-back mode; which bits of the pair ACC takes no rule gives, and
only an upset of TW_MODE could show it: ACC is kept beside the pair (DESIGN CHOICE, log 4). -/
structure Trowel where
  /-- input register stage | - | R133 07 | 0 -/
  inReg : TrowelOps := {}
  /-- product register stage | - | R133 07 | 0 -/
  mulReg : TrowelProd := {}
  /-- ACC_RE | 48 | R139 07 | 0 -/
  accRe : BitVec 48 := 0
  /-- ACC_IM | 48 | R139 07 | 0 -/
  accIm : BitVec 48 := 0
  /-- ACC of fall-back mode | 56 | R139 07 | 0 -/
  acc56 : BitVec 56 := 0
  /-- tw_aovf | 1 | R140 07 | 0 -/
  aovf : Bool := false
  /-- output stage tw_r_re, tw_r_im | 16 each | R133 07 | 0 -/
  rRe : BitVec 16 := 0
  rIm : BitVec 16 := 0
  /-- tw_ovf_re, tw_ovf_im of the output stage | 1 each | R142 07 | 0 -/
  ovfRe : Bool := false
  ovfIm : Bool := false
deriving DecidableEq, Repr

structure MemPort where
  /-- read data shown on the port | 64 | R89, R93 05 | 0 DC7 -/
  dout : BitVec 64 := 0
  /-- read data waiting for its second active edge | 64 + 1 | R89, R93 05 | none -/
  pipe : Option (BitVec 64 × Bool) := none
  /-- screed read data waiting for its last active edge | 64 + 1 | R93 05 | none -/
  pipe2 : Option (BitVec 64 × Bool) := none
  /-- skx_err or scx_err | 1 | R97 05 | 0 -/
  err : Bool := false
deriving DecidableEq, Repr

structure IoReg where
  /-- input registers io_i0, io_i1 | 1 each | R476 23 | 0 -/
  i0 : Bool := false
  i1 : Bool := false
  /-- pad level at the last falling edge, the DDR input half | 1 | R476 23 | 0 -/
  fall : Bool := false
  /-- the falling edge of the period has passed: a DDR output carries io_o1 | 1 | R476 23 | 0 -/
  half : Bool := false
  /-- output registers io_o0, io_o1, io_oe | 1 each | R476 23 | OINIT, OEINIT (0) -/
  o0 : Bool := false
  o1 : Bool := false
  oe : Bool := false
  /-- input delay tap | 9 | R477 23 | 0 (IDLY_INIT) -/
  itap : BitVec 9 := 0
  /-- output delay tap | 9 | R477 23 | 0 (ODLY_INIT) -/
  otap : BitVec 9 := 0
deriving DecidableEq, Repr

/-- Who makes a hedgerow request: the REQ_KIND and REQ_INDEX of R442. -/
structure Requester where
  kind : Nat
  index : Nat
deriving DecidableEq, Repr

/-- Who accesses a memory. -/
structure Asker where
  /-- REQ_KIND and REQ_INDEX | 4 + 20 | R442 21 | - -/
  kind : Nat
  index : Nat
  /-- world of the request | 1 | R436 21 | - -/
  world : Bool
  /-- finding host | - | R253 12 | none -/
  finder : Option Nat := none
  /-- a fixed port of the pseudo-channel controllers | 3 | R232 11 | none: the buffer's latency class -/
  qos : Option Nat := none
  /-- when the request was made, where it has waited, in the time of `tl.up` | - | R233 11 | none: now -/
  at_ : Option Nat := none
deriving DecidableEq, Repr

/-- An inbound fabric-target request of at most 32 bytes (R211). -/
structure GateReq where
  /-- requester and tag of the transaction | - | R211 10 | - -/
  who : Requester
  tag : Nat
  /-- hg_t_write, hg_t_addr, hg_t_wd, hg_t_be | 1+18+256+32 | R211 10 | - -/
  write : Bool
  off : Nat
  data : List Byte
  be : List Bool
  /-- hg_t_world, dbg_peek | 1 each | R211 10 | - -/
  world : Bool
  peek : Bool
  /-- last part of its transaction | 1 | R211 10 | - -/
  last : Bool
  /-- its transaction has ended with TIMEOUT: the answer is discarded | 1 | R208 10 | false -/
  late : Bool := false
deriving DecidableEq, Repr

/-- A request that a gate has issued, in its interface (R210). -/
structure OutReq where
  /-- the request | - | R211 10 | - -/
  req : GateIssue
  /-- the meadow's world at the edge of issue | 1 | R212 10 | - -/
  world : Bool
deriving DecidableEq, Repr

structure Gate where
  /-- the gate is open (hg_open is low in masking as well) | 1 | R213 10 | 0 (closed in BOOT) -/
  isOpen : Bool := false
  /-- hg_req_ready and hg_wd_ready | 1 | R214 10 | 0 -/
  ready : Bool := false
  /-- tags of outstanding non-posted requests | 6 each, 64 at most | R211 10 | none -/
  tags : List Nat := []
  /-- tags of the writes that have left and not been acknowledged, in time or ever | 6 each | R208, R210 10 | none -/
  wtags : List Nat := []
  /-- requests that wait in the interface behind one with ORD = 1 | - | R210 10 | none -/
  outq : List OutReq := []
  /-- inbound fabric-target requests presented and unanswered, oldest first | - | R211 10 | none -/
  target : List GateReq := []
  /-- inbound fabric-target requests held by masking | - | R214 10 | none -/
  held : List GateReq := []
  /-- answers of the parts of a split transaction so far: requester, tag, status, data | - | R211 10 | none -/
  parts : List (Requester × Nat × BitVec 3 × List Byte) := []
  /-- undelivered FABRIC_EVENTs: code, arming host, handle | 16 at most | R507 02 | none -/
  events : List (BitVec 16 × Nat × BitVec 32) := []
  /-- cue_valid with cue_code | 1 + 16 | R507 02 | none -/
  cue : Option (BitVec 16) := none
  /-- last response on hg_rsp: tag, status, data | - | R211 10 | none -/
  rsp : Option (Nat × BitVec 3 × List Byte) := none
deriving DecidableEq, Repr

structure Meadow where
  /-- meadow world | 1 | R436 21 | non-secure -/
  world : Bool := false
  /-- screed block group world | 1 | R102 05 | non-secure -/
  screedWorld : Bool := false
  /-- live plane | 3,072 frames | R376 18 | 0 -/
  live : Plane := {}
  /-- undercoat plane | 3,072 frames | R376 18 | 0 -/
  under : Plane := {}
  /-- undercoat state | 2 | R377 18 | EMPTY -/
  ucState : Undercoat := .empty
  /-- MASKED | 1 | R396 18 | 0 -/
  masked : Bool := false
  /-- launch time T of the swap in progress, arming host, handle, NOTIFY | - | R384 18 | none -/
  swapT : Option (Nat × Nat × BitVec 32 × Bool) := none
  /-- swap edge S has happened, masking not yet released | 1 | R384 18 | false -/
  swapped : Bool := false
  /-- frame at which the scrubber reads the live plane next | 12 | R389, R393 18 | 0 DC7 -/
  scrubAt : Nat := 0
  /-- paused by SCRUB_CONTROL | 1 | R389 18 | 0 DC7 -/
  scrubPause : Bool := false
  /-- memory column state | 2 | R99 05 | ON -/
  col : ColState := .on
  /-- column state before HOLD | 2 | R101 05 | none -/
  colHold : Option ColState := none
  /-- requested column state and the command it answers | - | R100 05 | none -/
  colReq : Option (ColState × Nat × BitVec 32) := none
  /-- SWAPS | 16 | R396 18 | 0 -/
  swaps : BitVec 16 := 0
  /-- flip-flops QA, QB of cell k | 2 each | R54 03 | SEED (0) -/
  ffs : Tab (Bool × Bool) := {}
  /-- enabled wire registers, by register point | 1 or 16 each | R74 04 | 0 -/
  wires : Tab (BitVec 16) := {}
  /-- boundary registers of outbound crossings | 1 or 16 each | R84 04 | 0 -/
  xregs : Tab (BitVec 16) := {}
  /-- value each outbound crossing presents while the meadow is masked | 1 or 16 each | R85 04 | 0 DC7 -/
  xout : Tab (BitVec 16) := {}
  /-- outputs that other hard units last presented to the routing | 1 or 16 each | R61 03, R76 04 | 0 DC7 -/
  hard : Tab (BitVec 16) := {}
  /-- trowel slice registers by sward | - | R133 07 | 0 -/
  trowels : Tab Trowel := {}
  /-- fabric reset signal | 1 | R424 20 | asserted -/
  frst : Bool := true
  /-- set state of regional clock gate k | 2 | R413 19 | OPEN (HELD shows while the hold stands) -/
  rclk : Tab GateState := {}
  /-- hedgerow gate | - | R211 10 | closed -/
  gate : Gate := {}
deriving DecidableEq, Repr

/-! ## Queues (spec/06_queue_controllers.md) -/

structure QWord where
  /-- data | 64 | R124 06 | - -/
  data : BitVec 64
  /-- priority tag | 2 | R112 06 | - -/
  prio : BitVec 2
  /-- low epoch bits | 4 | R116 06 | - -/
  epoch : BitVec 4
  /-- pushing slot 0-3 | 2 | R110 06 | - -/
  slot : Nat
  /-- its array row holds an uncorrectable error | 1 | R123 06 | - -/
  err : Bool := false
deriving DecidableEq, Repr

structure QSlot where
  /-- producer source code: kind [31:28], index [27:0]; 0 none | 32 | R353 16 | 0 (no slot) -/
  src : BitVec 32 := 0
  /-- credits granted | 13 | R108 06 | 0 -/
  grant : Nat := 0
  /-- credits held, as the controller counts them | 13 | R109 06 | 0 -/
  held : Nat := 0
  /-- credits returned and not yet reported or sent | 13 | R118, R124 06 | 0 -/
  due : Nat := 0
deriving DecidableEq, Repr

structure Queue where
  /-- filling bank, in push order | - | R112 06 | empty -/
  fill : List QWord := []
  /-- draining bank, in push order | - | R112 06 | empty -/
  drain : List QWord := []
  /-- carry-over chain | - | R113 06 | empty -/
  chain : List QWord := []
  /-- Q_EPOCH | 16 | R113 06 | 0 -/
  epoch : BitVec 16 := 0
  /-- producer slots 0-3 | - | R108 06 | none -/
  slots : Tab QSlot := {}
  /-- NOCRED_COUNT | 16 | R126 06 | 0 -/
  nocred : BitVec 16 := 0
  /-- POP_IGNORED_COUNT | 16 | R126 06 | 0 -/
  popIgn : BitVec 16 := 0
  /-- HEAD_TAG.SEQ, words delivered | 16 | R126 06 | 0 -/
  seq : BitVec 16 := 0
  /-- forwarding target: ARG1 of QUEUE_SETUP | 64 | R125 06 | none -/
  fwd : Option (BitVec 64) := none
deriving DecidableEq, Repr

structure QPort where
  /-- q_rsel at the last consumer edge | 3 | R121 06 | 0 DC7 -/
  rsel : Nat := 0
  /-- q_valid[7:0] during the cycle | 8 | R120 06 | 0 -/
  valid : BitVec 8 := 0
  /-- q_dout, q_dout_prio, q_dout_epoch, q_dout_err | 64+2+4+1 | R120 06 | none -/
  dout : Option QWord := none
  /-- q_drop | 1 | R117 06 | 0 -/
  drop : Bool := false
  /-- pushes dropped at this edge and the two before | 3 | R117 06 | 0 -/
  dropIn : BitVec 3 := 0
  /-- q_credit with q_credit_q, q_credit_n | 1+3+13 | R117 06 | none -/
  credit : Option (Nat × Nat) := none
  /-- queue last served on q_credit | 3 | R118 06 | 7 DC7 (so that queue 0 is next) -/
  lastServed : Nat := 7
deriving DecidableEq, Repr

structure Queues where
  /-- queue by global number | - | R106 06 | undefined, empty -/
  q : Tab Queue := {}
  /-- fabric ports of a skim block in queue mode | - | R117, R120 06 | idle -/
  port : Tab QPort := {}
  /-- queue world of a skim block | 1 | R129 06 | non-secure -/
  world : Tab Bool := {}
  /-- queue window n: host, queue, producer slot, consumer role | - | R128 06 | unbound -/
  win : Tab (Option (Nat × Nat × Nat × Bool)) := {}
deriving DecidableEq, Repr

/-! ## On-chip memories (05, 08) -/

structure Mems where
  /-- skim rows: byte 8,192 block + 8 row + 2 lane | 8 each | R88 05 | 0 after every full load (R98), DC8 before -/
  skim : Mem := {}
  /-- condition of skim lane 4,096 block + 4 row + lane | - | R97 05 | ok -/
  skimMark : Tab Mark := {}
  /-- port 2 block + (0 A, 1 B) of a skim block in memory mode | - | R89 05 | 0 -/
  skimPort : Tab MemPort := {}
  /-- screed rows: byte 65,536 block + offset | 8 each | R94 05 | 0 after every full load (R98), DC8 before -/
  screed : Mem := {}
  /-- condition of screed lane 32,768 block + 4 row + lane | - | R97 05, R222 10 | ok -/
  screedMark : Tab Mark := {}
  /-- fabric ports of a screed block | - | R93 05 | 0 -/
  screedPort : Tab MemPort := {}
  /-- engine data memory: byte 65,536 engine + address | 8 each | R147 08 | 0 DC8 -/
  dmem : Mem := {}
  /-- data-memory words with an uncorrectable error: 8,192 engine + word | 1 | R151 08 | none -/
  dmemBad : Tab Bool := {}
  /-- program memory: 2,048 engine + index | 64 each | R147 08 | 0 DC8 -/
  pmem : Tab (BitVec 64) := {}
  /-- program-memory instructions with an uncorrectable error | 1 | R151 08 | none -/
  pmemBad : Tab Bool := {}
  /-- secure scratchpads 0-3 and the warden's 4: byte 2,097,152 pad + offset | 8 each | R103 05 | 0 (wiped, R104) -/
  pad : Mem := {}
  /-- scratchpad words with an uncorrectable error: 262,144 pad + word | 1 | R103 05 | none -/
  padBad : Tab Bool := {}
  /-- a wipe is running (all five together) | 1 | R105 05 | true (power-on wipe, R104) -/
  wiping : Bool := true
  /-- scratchpads held powered off in LOCKDOWN | 1 | R105 05 | false -/
  padOff : Bool := false
deriving DecidableEq, Repr

/-! ## Stipple engines and task schedulers (08, 09, 22) -/

structure Acc where
  /-- RE | 48 | R147 08 | 0 at task start (R148) -/
  re : BitVec 48 := 0
  /-- IM | 48 | R147 08 | 0 at task start -/
  im : BitVec 48 := 0
deriving DecidableEq, Repr

inductive EngState where
  | idle | running | haltPending | halted | stepping
deriving DecidableEq, Repr

inductive StippleCause where
  | illegal | alias_ | badTarget | stack | stageFull | dmemEcc | pmemEcc | watchdog | reservation
deriving DecidableEq, Repr

/-- An entry of the output stage, or a word of the commit buffer (R177, R196). -/
inductive StageItem where
  | push (queue : Nat) (prio : BitVec 2) (data : BitVec 64)
  | token (entry : Nat) (slot : Nat) (data : BitVec 64)
deriving DecidableEq, Repr

/-- A load in flight: register (V file when `v`), lanes written, value, cycle from which it is seen (R167). -/
structure PendLoad where
  v : Bool
  reg : Nat
  lanes : BitVec 4
  value : BitVec 64
  due : Nat
deriving DecidableEq, Repr

structure Xfer where
  /-- HPUT rather than HGET | 1 | R175 08 | - -/
  put : Bool
  /-- local byte address | 16 | R175 08 | - -/
  loc : Nat
  /-- buffer handle and byte offset | 20 + 36 | R175 08 | - -/
  handle : Nat
  off : Nat
  /-- bytes | 13 | R175 08 | - -/
  len : Nat
  /-- world of the request | 1 | R153 08 | - -/
  world : Bool
deriving DecidableEq, Repr

structure Engine where
  /-- W0-W15 | 64 each | R147 08 | 0 DC7 -/
  w : Tab (BitVec 64) := {}
  /-- ACC0-ACC3 | 96 each | R147 08 | 0 DC7 -/
  acc : Tab Acc := {}
  /-- A0-A7 | 24 each | R147 08 | 0 DC7 -/
  a : Tab (BitVec 24) := {}
  /-- M0-M7 | 32 each | R147 08 | 0 DC7 -/
  m : Tab (BitVec 32) := {}
  /-- PC | 11 | R147 08 | 0 DC7 -/
  pc : BitVec 11 := 0
  /-- call stack, entry 0 the first pushed | 8 x 11 | R147 08 | 0 DC7 -/
  stack : Tab (BitVec 11) := {}
  /-- STATUS.CALLD | 4 | R154 08 | 0 -/
  depth : Nat := 0
  /-- ARITH: OSAT, ASAT, SHIFT | 32 | R154 08 | OSAT 1, ASAT 1, SHIFT 15 -/
  arith : BitVec 32 := 0xCF
  /-- STATUS.Z | 1 | R154 08 | 0 -/
  z : Bool := false
  /-- STATUS.N | 1 | R154 08 | 0 -/
  n : Bool := false
  /-- STATUS.LKOK | 1 | R154 08 | 0 -/
  lkok : Bool := false
  /-- STATUS.HERR | 1 | R154 08 | 0 -/
  herr : Bool := false
  /-- STATUS.AOVF | 1 | R154 08 | 0 -/
  aovf : Bool := false
  /-- STATUS.OOVF | 1 | R154 08 | 0 -/
  oovf : Bool := false
  /-- RBASE, lead engines | 6 | R154 08 | 0 -/
  rbase : BitVec 6 := 0
  /-- LCOUNT, lead engines | 16 | R154 08 | 0 DC7 -/
  lcount : BitVec 16 := 0
  /-- LOOP body first and last index, ROT | 11+11+1 | R172 08 | no loop -/
  loop : Option (BitVec 11 × BitVec 11 × Bool) := none
  /-- physical V0-V63, lead engines | 64 each | R147 08 | 0 DC7 -/
  v : Tab (BitVec 64) := {}
  /-- reservation: word address | 13 | R173 08 | none -/
  resv : Option Nat := none
  /-- a locked sequence is open | 1 | R174 08 | false -/
  locked : Bool := false
  /-- output stage, in issue order | 32 entries | R177 08 | empty -/
  stage : List StageItem := []
  /-- repetitions still to issue of the bundle at PC | 16 | R170 08 | none -/
  rep : Option Nat := none
  /-- CYCLES | 32 | R154 08 | 0 -/
  cycles : Nat := 0
  /-- loads in flight | - | R167 08 | none -/
  loads : List PendLoad := []
  /-- cycle at which a result register is ready: W 0-15, V 64-127, ACC 200-203 | - | R164 08 | none -/
  ready : Tab Nat := {}
  /-- hedgerow transfers outstanding (STATUS.HOUT is their number) | 16 | R175 08 | none -/
  xfers : List Xfer := []
  /-- END has issued and waits for HOUT | 1 | R195 09 | false -/
  ending : Bool := false
  /-- the task being aborted, its cause | - | R179, R181 08 | none -/
  abort : Option StippleCause := none
  /-- watchdog, in us, and running | 20 + 1 | R178 08 | 0, stopped DC7 -/
  wdog : Nat := 0
  wdogOn : Bool := false
  /-- watchdog expired and waiting for a REPEAT to end | 1 | R170 08 | false -/
  wdExpired : Bool := false
  /-- entry of the running task | 13 | R191 09 | none -/
  task : Option Nat := none
  /-- prefetch slot: entry dispatched and not started | 13 | R191 09 | none -/
  prefetch : Option Nat := none
  /-- world of the running task's requests | 1 | R440 21 | non-secure -/
  world : Bool := false
  /-- index of the last instruction issued | 11 | R349 16 | 0 DC7 -/
  lastPc : BitVec 11 := 0
  /-- DBG_ESTAT.STATE | 3 | R460 22 | IDLE -/
  st : EngState := .idle
  /-- DBG_ESTAT.CAUSE | 3 | R460 22 | 0 -/
  cause : BitVec 3 := 0
  /-- cause of a halt request that is pending | 3 | R461 22 | 0 -/
  reqCause : BitVec 3 := 0
  /-- DBG_ESTAT.CMP | 3 | R460 22 | 0 -/
  cmp : BitVec 3 := 0
  /-- DBG_ESTAT.FORCED | 1 | R460 22 | 0 -/
  forced : Bool := false
  /-- DBG_ESTAT.WADDR | 18 | R460 22 | 0 -/
  waddr : BitVec 18 := 0
  /-- a watch has hit inside a REPEAT | 1 | R464 22 | false -/
  watched : Bool := false
  /-- cycle from which data-memory bank b is free | - | R150 08 | 0 -/
  bankFree : Tab Nat := {}
  /-- the engine left HALTED by RESUME or STEP and has issued nothing since: a break at PC does not hit again | 1 | R464 22 | false -/
  skipBreak : Bool := false
  /-- DBG_ECTRL.XTRIG | 1 | R460 22 | 0 -/
  xtrig : Bool := false
  /-- comparators 0-7 | 64 each | R464 22 | 0 -/
  cmps : Tab (BitVec 64) := {}
deriving DecidableEq, Repr

inductive EntState where
  | free | idle | filling | delayed | ready | dispatched | running | held
deriving DecidableEq, Repr

structure Entry where
  /-- STATE | 3 | R183 09 | FREE -/
  st : EntState := .free
  /-- WORLD | 1 | R183 09 | 0 -/
  world : Bool := false
  /-- REARM | 1 | R183 09 | 0 -/
  rearm : Bool := false
  /-- PRIO | 2 | R183 09 | 0 -/
  prio : BitVec 2 := 0
  /-- LEADSEL | 2 | R183 09 | 0 -/
  leadsel : BitVec 2 := 0
  /-- ROWSET | 8 | R183 09 | 0 -/
  rowset : BitVec 8 := 0
  /-- ENTRY_PC | 11 | R183 09 | 0 -/
  pc : BitVec 11 := 0
  /-- SLOTMASK | 4 | R183 09 | 0 -/
  slotmask : BitVec 4 := 0
  /-- FILLED | 4 | R183 09 | 0 -/
  filled : BitVec 4 := 0
  /-- DLIST | 2 | R183 09 | 0 -/
  dlist : BitVec 2 := 0
  /-- DELAY | 16 | R183 09 | 0 -/
  delay : BitVec 16 := 0
  /-- RETRY | 4 | R183 09 | 0 -/
  retry : BitVec 4 := 0
  /-- OUTQ0 | 17 | R183 09 | 0 -/
  outq0 : BitVec 17 := 0
  /-- OUTN0 | 6 | R183 09 | 0 -/
  outn0 : BitVec 6 := 0
  /-- OUTQ1 | 17 | R183 09 | 0 -/
  outq1 : BitVec 17 := 0
  /-- OUTN1 | 6 | R183 09 | 0 -/
  outn1 : BitVec 6 := 0
  /-- OP0-OP3 | 64 each | R183 09 | empty (0) -/
  ops : Tab (BitVec 64) := {}
  /-- due tick | 32 | R188 09 | 0 -/
  due : BitVec 32 := 0
  /-- last required slot taken, readiness not yet evaluated | 1 | R188 09 | false -/
  eval : Bool := false
  /-- engine of the task's last run | 9 | R349 16 | none -/
  lastEng : Option Nat := none
  /-- index of the last instruction the task issued before it was returned | 11 | R349 16 | 0 -/
  lastPc : BitVec 11 := 0
deriving DecidableEq, Repr

/-- A committed word: the item, the world of the entry it was committed for, whether a reserved credit stands behind it. -/
structure Commit where
  /-- the word and its target | - | R196 09 | - -/
  item : StageItem
  /-- world of the task's entry | 1 | R129 06, R186 09 | - -/
  world : Bool
  /-- a reserved credit stands behind it | 1 | R196 09 | - -/
  rsv : Bool
  /-- requester of a token that no task of a scheduler sent | - | R186 09 | - -/
  sender : Option Requester := none
deriving DecidableEq, Repr

structure Sched where
  /-- READY entries in dispatch order within each priority | - | R190 09 | empty -/
  ready : List Nat := []
  /-- delay lists 0-3, sorted by due tick | 512 each | R189 09 | empty -/
  dlists : Tab (List Nat) := {}
  /-- DELAYED entries waiting outside full lists (DLIST_WAIT is their number) | - | R189 09 | none -/
  outside : List Nat := []
  /-- commit buffer in commit order | 8,192 words | R196 09 | empty -/
  commit : List Commit := []
  /-- tokens that came over the hedgerow and wait for their slot | - | R185 09, R186 09 | none -/
  arrivals : List Commit := []
  /-- commit-buffer entries reserved | - | R192 09 | 0 -/
  resv : Nat := 0
  /-- credits reserved by tasks and by committed words, by queue | 13 | R192 09 | 0 -/
  qresv : Tab Nat := {}
  /-- engine chosen last | 9 | R191 09 | 511 DC7 (so that engine 0 of the heath is next) -/
  lastEng : Nat := 511
  /-- OPERAND_REFUSED | 16 | R201 09 | 0 -/
  opRefused : BitVec 16 := 0
  /-- RELEASE_LOST | 16 | R201 09 | 0 -/
  relLost : BitVec 16 := 0
  /-- REDISPATCH | 16 | R201 09 | 0 -/
  redispatch : BitVec 16 := 0
  /-- TOKEN_DROPPED | 16 | R201 09 | 0 -/
  tokDropped : BitVec 16 := 0
deriving DecidableEq, Repr

/-- A command that has answered QUEUED and awaits its final response (R341). -/
structure Bg where
  host : Nat
  seq : BitVec 32
  code : BitVec 16
  tag : BitVec 16
deriving DecidableEq, Repr

structure Row where
  /-- row world | 1 | R153 08 | non-secure -/
  world : Bool := false
  /-- ROW_OFFLINE | 1 | R201 09 | 0 -/
  offline : Bool := false
  /-- ROW_DRAINING, by a self-test or a load | 1 | R201 09 | 0 -/
  draining : Bool := false
  /-- the self-test runs | 1 | R200 09 | false -/
  testing : Bool := false
  /-- a row reset has been made since the row went offline | 1 | R200 09 | false -/
  resetSince : Bool := false
  /-- watchdog period in us | 20 | R178 08 | 1,000 -/
  period : Nat := 1000
  /-- RETRY_LIMIT | 4 | R198 09 | 3 -/
  limit : Nat := 3
  /-- self-tests pending, oldest first | - | R200 09 | none -/
  tests : List Bg := []
  /-- ROW_LOADs pending, oldest first: command, handle, offset, length, world of the command | - | R152 08 | none -/
  loads : List (Bg × Nat × Nat × Nat × Bool) := []
  /-- row clock gate and the CLOCK_GATE command that waits for it | 2 | R415 19 | OPEN -/
  gate : GateState := .opened
  gateCmd : Option Bg := none
deriving DecidableEq, Repr

structure Stipple where
  /-- engine by global number | - | R147 08 | idle -/
  eng : Tab Engine := {}
  /-- row by global number | - | R178 08 | as Row -/
  row : Tab Row := {}
  /-- matching-store entry by global number | - | R183 09 | FREE -/
  ent : Tab Entry := {}
  /-- scheduler of heath h | - | R190 09 | empty -/
  sch : Tab Sched := {}
deriving DecidableEq, Repr

/-! ## Hedgerow, pool, HBM, scrim (10, 11, 12) -/

/-- A buffer access that waits for its pseudo-channels through HOLD. -/
inductive HeldKind where
  | bread (len : Nat)
  | bwrite (data : List Byte) (be : List Bool)
  | bar2Read (len : Nat)
  | bar2Write (data : List Byte) (be : List Bool)
deriving DecidableEq, Repr

structure HeldReq where
  /-- who asked, with the world of the request and its arrival time | - | R233, R238 11 | - -/
  who : Asker
  /-- tag (a hedgerow transaction) | - | R205 10 | - -/
  tag : Nat
  /-- buffer handle and byte offset | 20 + 36 | R205 10 | - -/
  handle : Nat
  off : Nat
  /-- what is asked | - | R205, R225 10 | - -/
  what : HeldKind
  /-- it has ended with TIMEOUT | 1 | R208 10 | false -/
  late : Bool := false
deriving DecidableEq, Repr

structure HgResp where
  /-- requester and tag of the request answered | - | R207 10 | - -/
  who : Requester
  tag : Nat
  /-- status | 3 | R207 10 | - -/
  status : BitVec 3
  /-- read data, or head word and tag | - | R207 10 | - -/
  data : List Byte
deriving DecidableEq, Repr

structure HLink where
  /-- retries in a row | 5 | R204 10 | 0 -/
  retries : Nat := 0
  /-- link retired | 1 | R204 10 | false -/
  retired : Bool := false
deriving DecidableEq, Repr

structure Hedgerow where
  /-- die-to-die link 16 edge + n | - | R202 10 | working -/
  link : Tab HLink := {}
  /-- responses on their way to their requesters | - | R207 10 | none -/
  resp : List HgResp := []
  /-- non-posted requests issued and not yet served: requester, tag | - | R208 10 | none -/
  wait : List (Requester × Nat) := []
  /-- accesses held by the pseudo-channels in HOLD, in order of arrival | - | R238 11 | none -/
  held : List HeldReq := []
  /-- handle translations cached: requester kind, index, handle | 256 per interface | R217 10 | empty -/
  cache : List (Nat × Nat × Nat) := []
deriving DecidableEq, Repr

structure Cls where
  /-- SIZE in 4 KiB granules | 19 | R216 10 | undefined -/
  size : Nat
  /-- BW_CLASS | 3 | R216 10 | undefined -/
  bw : Nat
  /-- LAT_CLASS | 2 | R216 10 | undefined -/
  lat : Nat
  /-- WORLD | 1 | R216 10 | undefined -/
  world : Bool
  /-- MEM_PREF | 2 | R216 10 | undefined -/
  pref : Nat
deriving DecidableEq, Repr

/-- Where a copy of a buffer lies: HBM channels with the granules of each in order, or screed (block, granule) in order. -/
inductive Place where
  | hbm (il : Nat) (chans : List (Nat × List Nat))
  | screed (gs : List (Nat × Nat))
deriving DecidableEq, Repr

structure Buf where
  /-- class | 8 | R215 10 | - -/
  cls : Nat
  /-- size in granules, bandwidth and latency class, world | - | R216 10 | - -/
  size : Nat
  bw : Nat
  lat : Nat
  world : Bool
  /-- placement | - | R218 10 | - -/
  place : Place
  /-- granules filled ahead of or behind the fill boundary; none when the fill has ended | - | R255 12 | - -/
  fill : Option (List Nat)
  /-- private to the warden (image store) | 1 | R380 18 | - -/
  isStore : Bool := false
deriving DecidableEq, Repr

structure Migration where
  handle : Nat
  /-- new placement | - | R220 10 | - -/
  dest : Place
  /-- boundary in 4 KiB granules | - | R221 10 | 0 -/
  bound : Nat
  /-- old pseudo-channels the move empties | - | R240 11 | - -/
  cmds : List Bg
deriving DecidableEq, Repr

structure Pool where
  /-- buffer class by number | - | R216 10 | undefined -/
  cls : Tab (Option Cls) := {}
  /-- buffer by handle | - | R215 10 | none -/
  buf : Tab (Option Buf) := {}
  /-- freed handles, in the order freed | - | R215 10 | none -/
  freed : List Nat := []
  /-- handles never yet given, the next one | 20 | R215 10 | 1 DC7 -/
  fresh : Nat := 1
  /-- pseudo-channels excluded by POOL_EXCLUDE | 32 | R220 10 | none -/
  excl : List Nat := []
  /-- migrations running, four at most, then waiting, in command order | - | R220 10 | none -/
  mig : List Migration := []
  /-- POOL_EXCLUDE commands waiting for handles to move | - | R220 10 | none -/
  moves : List (Bg × List Nat) := []
  /-- screed block that took the last granule of a placement | 11 | R218 10 | 1,151 DC7 (so that block 0 is next) -/
  lastScreed : Nat := 1151
  /-- BAR2 slice 1,024 host + n: handle and offset | - | R224 10 | unmapped -/
  slice : Tab (Option (Nat × Nat)) := {}
deriving DecidableEq, Repr

inductive PchState where
  | untrained | active | selfRefresh | retraining | failed
deriving DecidableEq, Repr

structure HbmReq where
  /-- request port | 3 | R232 11 | - -/
  port : Nat
  /-- line address | 25 | R229 11 | - -/
  la : Nat
  /-- write rather than read | 1 | R234 11 | - -/
  write : Bool
  /-- when it reached the controller or the scrim slice, in the time of `tl.up` | - | R233 11 | - -/
  at_ : Nat
  /-- read of the patrol: urgency 0 whatever the target of its port | 1 | R246 11 | - -/
  patrol : Bool := false
deriving DecidableEq, Repr

structure Pch where
  /-- STATE | 3 | R247 11 | UNTRAINED -/
  st : PchState := .untrained
  /-- COAST_RATE | 1 | R247 11 | 0 -/
  coast : Bool := false
  /-- HOT | 1 | R247 11 | 0 -/
  hot : Bool := false
  /-- SPARES_USED | 8 | R247 11 | 0 -/
  spares : BitVec 8 := 0
  /-- UNCORRECTABLE | 16 | R247 11 | 0 -/
  uncorr : BitVec 16 := 0
  /-- POISON_READS | 16 | R247 11 | 0 -/
  poisonReads : BitVec 16 := 0
  /-- CORRECTED | 16 | R247 11 | 0 -/
  corr : BitVec 16 := 0
  /-- HBM_BANKMAP0-3 written by HBM_MAP_SET | 32 each | R230 11 | none: 0x0022_2220, 0x0044_4440, 0x0008_8880, 0x0011_1100 -/
  map : Option (BitVec 25 × BitVec 25 × BitVec 25 × BitVec 25) := none
  /-- HBM_QOS_TARGET0-7 | 16 each | R232 11 | 0; 2,000; 1,000; 500; 0; 0; 4,000; 8,000 by port -/
  qos : Tab (Option (BitVec 16)) := {}
  /-- HBM_SR_IDLE | 20 | R237 11 | 1,000 -/
  srIdle : Nat := 1000
  /-- corrected errors of the present one-second interval | - | R244 11 | 0 -/
  ceCount : Nat := 0
  /-- next line of the patrol | 25 | R246 11 | 0 DC7 -/
  patrol : Nat := 0
  /-- requests in the controller and in the scrim slice, in order of arrival | 128 in the controller | R234 11 | none -/
  reqs : List HbmReq := []
  /-- open row of a bank, by mapped bank 0-47 | 14 each | R234 11 | none DC7 -/
  rows : Tab (Option Nat) := {}
  /-- direction in use: writes are being drained | 1 | R234 11 | 0 DC7 -/
  drain : Bool := false
  /-- refresh intervals by which the refresh of bank b is postponed | 3 each | R235 11 | 0 -/
  postponed : Tab Nat := {}
  /-- bank of the next per-bank refresh, 0-47 | 6 | R235 11 | 0 DC7 -/
  refBank : Nat := 0
  /-- retrains pending, oldest first: command, answered-QUEUED flag | - | R240 11 | none -/
  retrains : List (Bg × Bool) := []
deriving DecidableEq, Repr

structure Hbm where
  /-- pseudo-channel by global number | - | R247 11 | UNTRAINED -/
  pch : Tab Pch := {}
  /-- line data: byte 64(2^25 pc + LA) + b, as a requester reads it | 8 each | R228 11, R250 12 | lost (0 DC8) -/
  mem : Mem := {}
  /-- condition of line 2^25 pc + LA | - | R245 11 | ok -/
  mark : Tab Mark := {}
  /-- what upsets have changed in line 2^25 pc + LA and its side bits since they were written | 576 | R243 11 | none -/
  upset : Tab LineUpset := {}
  /-- second of timeline time in which the present corrected-error interval began | - | R244 11 | 0 DC7 -/
  ceSec : Nat := 0
  /-- URGENT_LATE of a pseudo-channel | 16 each | R247 11 | 0 -/
  late : Tab (BitVec 16) := {}
deriving DecidableEq, Repr

structure Roll where
  /-- cause 1-4 | 3 | R266 12 | - -/
  cause : BitVec 3
  /-- integrity setting the roll moves to | 1 | R258 12 | - -/
  integ : Bool
  /-- the roll walks (rather than waits) | 1 | R260 12 | - -/
  walking : Bool
  /-- lines of pseudo-channel p passed, from the region's first line | 18 each | R258 12 | 0 -/
  bound : Tab Nat := {}
deriving DecidableEq, Repr

structure Region where
  /-- the region is LOST; the other values of STATE follow from its roll | 1 | R264, R266 12 | false (ACTIVE) -/
  lost : Bool := false
  /-- WORLD | 1 | R249 12 | non-secure -/
  world : Bool := false
  /-- integrity setting of the region | 1 | R249 12 | off -/
  integ : Bool := false
  /-- ROLL_CAUSE | 3 | R266 12 | 0 -/
  cause : BitVec 3 := 0
  /-- EPOCH | 32 | R249 12 | 0 -/
  epoch : BitVec 32 := 0
  /-- ordinal of the key in the slot; its bits are readable by no one | 256 | R249 12 | fresh key 0 -/
  key : Nat := 0
  /-- key table zeroised in LOCKDOWN | 1 | R265 12 | false -/
  zeroed : Bool := false
  /-- leaves, by pseudo-channel 0-15 of the stack | 32 each | R257 12 | 0 -/
  leaf : Tab Nat := {}
  /-- root | 48 | R257 12 | 0 -/
  root : Nat := 0
  /-- roll of the region and a second roll queued behind it | - | R260 12 | none -/
  roll : Option Roll := none
  roll2 : Option Roll := none
  /-- the key was discarded: lines not in `fresh` were written under a lost key | 1 | R265 12 | false -/
  stale : Bool := false
  fresh : List Nat := []
  /-- place reached by the poison walk of a lost region: line 2^25 p + LA | - | R264 12 | 0 -/
  walk : Nat := 0
deriving DecidableEq, Repr

structure Slice where
  /-- ROLL_SHARE | 8 | R266 12 | 5 -/
  share : BitVec 8 := 5
  /-- TAG_FAILS | 16 | R266 12 | 0 -/
  tagFails : BitVec 16 := 0
  /-- PARTIAL_REFUSED | 16 | R266 12 | 0 -/
  partialRef : BitVec 16 := 0
  /-- regions with a roll waiting, in the order started | - | R260 12 | none -/
  waiting : List Nat := []
deriving DecidableEq, Repr

structure Scrim where
  /-- region by number | - | R248 12 | ACTIVE, non-secure -/
  region : Tab Region := {}
  /-- slice of stack s | - | R266 12 | share 5 -/
  slice : Tab Slice := {}
deriving DecidableEq, Repr

/-! ## Streams, lanes, SDI, PCIe (13, 14, 15) -/

inductive CtxState where
  | free | idle | active | restarting
deriving DecidableEq, Repr

/-- A frame that an ingress context has begun and not yet described. -/
structure FrameRec where
  /-- RTP timestamp | 32 | R281 13 | - -/
  ts : BitVec 32
  /-- ring index of its buffer | 4 | R281 13 | - -/
  idx : Nat
  /-- lowest extended sequence number accepted | 32 | R275 13 | - -/
  first : Nat
  /-- highest extended sequence number accepted | 32 | R279 13 | - -/
  high : Nat
  /-- its last number: of the packet with the marker, or as closed | 32 | R275 13 | none -/
  last : Option Nat := none
  /-- records stored (PASS, ANC), bytes used (PASS) | - | R282, R284 13 | 0 -/
  recs : Nat := 0
  used : Nat := 0
  /-- INCOMPLETE | 1 | R285 13 | false -/
  incomplete : Bool := false
  /-- PREV_INTERRUPTED | 1 | R285 13 | false -/
  prevInt : Bool := false
  /-- lines whose end has been taken: place in transmission order from 1, frame line, number | - | R275 13 | none -/
  ends : List (Nat × Nat × Nat) := []
  /-- lines announced, in transmission order | 13 | R275 13 | 0 -/
  told : Nat := 0
  /-- M has passed its last packet and its descriptor has fallen due; kept while no later frame is open | 1 | R281 13 | false -/
  done : Bool := false
  /-- the packet that names row 0, offset 0 has been taken: nothing is missing before `first` | 1 | R271, R274 13 | false -/
  begun : Bool := false
deriving DecidableEq, Repr

/-- An egress packet formed and not yet sent. -/
structure Formed where
  /-- due time, 2^-32 ns | - | R288 13 | - -/
  due : Nat
  /-- RTP timestamp | 32 | R289 13 | - -/
  ts : BitVec 32
  /-- RTP marker | 1 | R289 13 | - -/
  marker : Bool
  /-- last packet of its frame | 1 | R296 13 | - -/
  whole : Bool
  /-- payload | - | R289 13 | - -/
  body : Body
deriving DecidableEq, Repr

structure Ctx where
  /-- STATE | 3 | R296 13 | FREE -/
  st : CtxState := .free
  /-- WORLD | 1 | R268 13 | as created -/
  world : Bool := false
  /-- parameter block words 0x00-0x90 | 19 x 64 | R355 16 | 0 -/
  prm : List (BitVec 64) := []
  /-- creating host | 3 | R348 16 | 0 DC7 -/
  creator : Nat := 0
  /-- egress: handle in force | 20 | R293 13 | 0 -/
  src : Nat := 0
  /-- egress: handle latched for the next frame | 20 | R293 13 | none -/
  srcNext : Option Nat := none
  /-- egress: wire rate reserved on path A and on path B in bit/s, packets per second on each | - | R290 13 | 0 -/
  rate : Nat := 0
  rateB : Nat := 0
  pps : Nat := 0
  /-- merge point M, extended sequence number | 32 | R274 13 | 0 -/
  mPt : Nat := 0
  /-- numbers above M taken, rising | - | R274 13 | none -/
  taken : List Nat := []
  /-- runs of numbers declared lost, as first and count, within 2^24 behind M | - | R274 13 | none -/
  lost : List (Nat × Nat) := []
  /-- timestamps that are not new: of frames opened (VIDEO), of packets met (PASS, ANC), the last 65,536, newest first | 32 each | R271 13 | none -/
  oldTs : List (BitVec 32) := []
  /-- frames begun and not yet described, oldest first | - | R275 13 | none -/
  frs : List FrameRec := []
  /-- no frame has started since the context was enabled | 1 | R281 13 | true -/
  firstFrame : Bool := true
  /-- the next frame to open follows an interrupted one, or lacks its first numbers | 1 + 1 | R278, R274 13 | false -/
  prevInt : Bool := false
  nextInc : Bool := false
  /-- SDI: ANC records stored since the last frame that was open, of the frame to begin | - | R295 13 | 0 -/
  preRecs : Nat := 0
  /-- AUDIO, AES3: numbers above M taken whose write failed | - | R285 13 | none -/
  badWr : List Nat := []
  /-- ring write (or egress read) place of ANC records in 64-byte units | 24 | R284 13 | 0 -/
  ring : Nat := 0
  /-- AUDIO: numbers of the block passed by M, blocks done, the block is incomplete | - | R285 13 | 0 -/
  blk : Nat := 0
  blks : Nat := 0
  blkInc : Bool := false
  /-- descriptors due and not pushed, oldest first: one LINE when without credit, four others at most | 64 each | R286 13 | none -/
  wait : List (BitVec 64) := []
  /-- a run of overrun frames is in progress | 1 | R286 13 | false -/
  overrun : Bool := false
  /-- PATH_A_UP, PATH_B_UP | 1 each | R277 13 | 0 -/
  upA : Bool := false
  upB : Bool := false
  /-- arrivals not yet matched on the other path: number, path B, time | - | R296 13 | none -/
  arr : List (Nat × Bool × Nat) := []
  /-- SKEW_NS samples, the last 1,024, newest first | - | R296 13 | none -/
  skew : List Int := []
  /-- ring index in use | 4 | R296 13 | 0 -/
  bufIdx : Nat := 0
  /-- FRAME_COUNT | 30 | R296 13 | 0 -/
  frames : BitVec 30 := 0
  /-- FS_ACCEPTED, FS_DUPLICATE | 64 each | R296 13 | 0 -/
  accepted : BitVec 64 := 0
  duplicate : BitVec 64 := 0
  /-- INVALID, LATE, LOST, MEM_FAULT | 16 each | R296 13 | 0 -/
  invalid : BitVec 16 := 0
  late : BitVec 16 := 0
  lostCount : BitVec 16 := 0
  memFault : BitVec 16 := 0
  /-- FRAMES_DONE, FRAMES_INCOMPLETE, DESC_OVERRUN | 32+16+16 | R296 13 | 0 -/
  done : BitVec 32 := 0
  incompl : BitVec 16 := 0
  overruns : BitVec 16 := 0
  /-- PATH_A_DOWNS, PATH_B_DOWNS | 16 each | R296 13 | 0 -/
  downsA : BitVec 16 := 0
  downsB : BitVec 16 := 0
  /-- egress: next RTP sequence number | 32 | R289 13 | 0 DC7 -/
  seq : BitVec 32 := 0
  /-- egress: grid frame (AUDIO, AES3: packet interval) in hand, packets formed of it, packets it has (PASS) | - | R288 13 | none -/
  egFrame : Option Nat := none
  egPkt : Nat := 0
  egN : Nat := 0
  /-- egress PASS: byte offset of the next record | - | R282 13 | 0 -/
  egOff : Nat := 0
  /-- egress ANC: records of the frame in hand not yet read | - | R291 13 | 0 -/
  egRecs : Nat := 0
  /-- egress: packets formed and not yet sent, oldest first | - | R289 13 | none -/
  formed : List Formed := []
  /-- last ST 352 format mismatch reported | 64 | R295 13 | none -/
  fmtBad : Option (BitVec 64) := none
deriving DecidableEq, Repr

structure EthPort where
  /-- ENABLED | 1 | R318 14 | 0 -/
  en : Bool := false
  /-- LINK_UP | 1 | R318 14 | 0 -/
  up : Bool := false
  /-- LOCK | 1 | R318 14 | 0 -/
  lock : Bool := false
  /-- HI_BER | 1 | R318 14 | 0 -/
  hiBer : Bool := false
  /-- AN_DONE | 1 | R318 14 | 0 -/
  anDone : Bool := false
  /-- FEC | 2 | R318 14 | 0 -/
  fec : BitVec 2 := 0
  /-- LINK_DOWNS | 16 | R318 14 | 0 -/
  downs : BitVec 16 := 0
  /-- FEC_CORRECTED, FEC_UNCORRECTED | 32 + 16 | R318 14 | 0 -/
  fecCorr : BitVec 32 := 0
  fecUncorr : BitVec 16 := 0
  /-- FCS_ERRORS | 16 | R318 14 | 0 -/
  fcs : BitVec 16 := 0
  /-- SE_UNMATCHED_k | 32 | R296 13 | 0 -/
  unmatched : BitVec 32 := 0
  /-- frames refused at the port block beyond the packet or line rate, or in HOLD | - | R267 13, R429 20 | 0 -/
  refused : Nat := 0
  /-- frames lately taken in: time since reset, octets on the wire | - | R267 13 | none -/
  seen : List (Nat × Nat) := []
deriving DecidableEq, Repr

structure PortBlock where
  /-- mode: none absent, 0 1x800, 1 2x400, 2 8x100, 3 8x25 | 3 | R309 14, R318 | absent (0) -/
  mode : Option Nat := none
  /-- MAC of port 0 | 48 | R353 16 | 0 DC7 -/
  mac : BitVec 48 := 0
deriving DecidableEq, Repr

/-- What a lane's last calibration left: STATE of R318 follows from it, its use and its work. -/
inductive LaneSt where
  | off | ready | failed
deriving DecidableEq, Repr

structure Lane where
  /-- STATE | 3 | R318 14 | OFF -/
  st : LaneSt := .off
  /-- SIGNAL | 1 | R318 14 | 0 -/
  signal : Bool := false
  /-- POL_INV | 1 | R318 14 | 0 -/
  polInv : Bool := false
  /-- TX_POL_INV | 1 | R318 14 | 0 -/
  txPol : Bool := false
  /-- PAM4 | 1 | R318 14 | 0 -/
  pam4 : Bool := false
  /-- RATE | 17 | R318 14 | 0 -/
  rate : BitVec 17 := 0
  /-- LOS_COUNT | 16 | R318 14 | 0 -/
  los : BitVec 16 := 0
  /-- EYE_MARGIN | 8 | R318 14 | 0 -/
  eye : BitVec 8 := 0
  /-- transmit taps k = 0-4, the main tap at k = 2 | 7 each, signed | R300 14, R353 16 | main tap only, at its largest setting (63) DC23 -/
  taps : BitVec 35 := 63 <<< 14
  /-- calibrations and self-tests pending or running, oldest first: command, self-test flag, QUEUED already answered | - | R302 14 | none -/
  jobs : List (Bg × Bool × Bool) := []
deriving DecidableEq, Repr

structure SdiPort where
  /-- DIR | 1 | R318 14 | input -/
  out : Bool := false
  /-- automatic detection | 1 | R313 14 | false DC7 -/
  auto : Bool := false
  /-- standard set | 3 | R313 14 | 0 DC7 -/
  std : BitVec 3 := 0
  /-- format, in the layout of block word 0x38 | 64 | R353 16 | 0 DC7 -/
  fmt : BitVec 64 := 0
  /-- GRID and OUT_OFFSET_NS | 4 + 32 | R315 14 | 0 DC7 -/
  grid : Nat := 0
  off : Nat := 0
  /-- CARRIER | 1 | R318 14 | 0 -/
  carrier : Bool := false
  /-- STANDARD | 3 | R318 14 | 0 -/
  detStd : BitVec 3 := 0
  /-- FRAC | 1 | R318 14 | 0 -/
  frac : Bool := false
  /-- ST352_PRESENT, ST352 | 1 + 32 | R318 14 | 0 -/
  has352 : Bool := false
  st352 : BitVec 32 := 0
  /-- ALIGNED | 1 | R318 14 | 0 -/
  aligned : Bool := false
  /-- INPUT_PPM | 16 | R318 14 | 0 -/
  ppm : BitVec 16 := 0
  /-- CRC_ERRORS, TRS_ERRORS, ANC_CHECKSUM, REPHASES | 16 each | R318 14 | 0 -/
  crc : BitVec 16 := 0
  trs : BitVec 16 := 0
  anc : BitVec 16 := 0
  reph : BitVec 16 := 0
  /-- output: time at which the frame in progress started or the first will start, 2^-32 ns | - | R315 14 | none -/
  cur : Option Nat := none
  /-- output: start of the next frame, fixed at the last active line | - | R317 14 | none -/
  next : Option Nat := none
  /-- output: lines sent of the frame in progress | 12 | R314 14 | 0 -/
  line : Nat := 0
  /-- output: the content of the frame in progress has begun to form | 1 | R295 13 | false -/
  formed : Bool := false
  /-- output: ANC packets read from the ring for the next line, 2 µs before it | - | R314 14 | none -/
  ahead : Option (List AncPkt) := none
  /-- a test has kept the lane from its context, which joins at the next frame start | 1 | R303 14 | false -/
  apart : Bool := false
  /-- input: format of the last line, in the layout of block word 0x38 | 36 | R318 14 | none -/
  seenFmt : Option Nat := none
  /-- input: timeline time of the last line's EAV, 2^-32 ns | - | R313 14 | none -/
  eav : Option Nat := none
deriving DecidableEq, Repr

structure Net where
  /-- flow context by global number | - | R269 13 | FREE -/
  ctx : Tab Ctx := {}
  /-- Ethernet port 8 block + p | - | R318 14 | disabled -/
  port : Tab EthPort := {}
  /-- port block | - | R309 14 | absent -/
  blk : Tab PortBlock := {}
  /-- serial lane | - | R318 14 | OFF -/
  lane : Tab Lane := {}
  /-- SDI port | - | R318 14 | input -/
  sdi : Tab SdiPort := {}
deriving DecidableEq, Repr

structure PcieLink where
  /-- PCIE_LINK_STATUS.STATE | 3 | R332 15 | 0 absent -/
  st : BitVec 3 := 0
  /-- GEN | 4 | R332 15 | 0 -/
  gen : BitVec 4 := 0
  /-- WIDTH | 5 | R332 15 | 0 -/
  width : BitVec 5 := 0
  /-- FLIT | 1 | R332 15 | 0 -/
  flit : Bool := false
  /-- LINK_DOWNS | 16 | R332 15 | 0 -/
  downs : BitVec 16 := 0
  /-- the port controller answers configuration requests | 1 | R321 15 | false -/
  cfgReady : Bool := false
  /-- configuration space as written by the host, by dword | 32 each | R321 15 | identity values only -/
  cfg : Tab (BitVec 32) := {}
  /-- MSI-X table and pending-bit array, bytes from 0x00_7000 | 8 each | R323 15 | 0 DC7 -/
  msix : Mem := {}
deriving DecidableEq, Repr

/-! ## Mailboxes (spec/16_warden_mailbox.md) -/

structure Cmd where
  /-- SEQ | 32 | R336 16 | - -/
  seq : BitVec 32
  /-- CODE | 16 | R336 16 | - -/
  code : BitVec 16
  /-- TAG | 16 | R336 16 | - -/
  tag : BitVec 16
  /-- ARG0-ARG6 | 64 each | R336 16 | - -/
  args : List (BitVec 64)
  /-- world of the host at acceptance | 1 | R440 21 | - -/
  world : Bool
  /-- acceptance time | - | R350 16 | - -/
  at_ : Nat
deriving DecidableEq, Repr

structure Rsp where
  /-- RSP_SEQ | 32 | R336 16 | - -/
  rseq : BitVec 32 := 0
  /-- CMD_SEQ | 32 | R336 16 | - -/
  seq : BitVec 32 := 0
  /-- CODE | 16 | R336 16 | - -/
  code : BitVec 16 := 0
  /-- TAG | 16 | R336 16 | - -/
  tag : BitVec 16 := 0
  /-- STATUS | 8 | R336 16 | - -/
  status : BitVec 8 := 0
  /-- FINAL | 1 | R336 16 | - -/
  isFinal : Bool := false
  /-- CAUSE | 16 | R336 16 | - -/
  cause : BitVec 16 := 0
  /-- RES0-RES5 | 64 each | R336 16 | - -/
  res : List (BitVec 64) := []
  /-- the command's first response (not kept in the slot: it decides MB_DONE_SEQ) | 1 | R340 16 | - -/
  first : Bool := true
deriving DecidableEq, Repr

structure Ev where
  /-- EVT_SEQ | 32 | R336 16 | - -/
  eseq : BitVec 32 := 0
  /-- EVT_CODE | 16 | R336 16 | - -/
  code : BitVec 16 := 0
  /-- SEVERITY | 8 | R336 16 | - -/
  sev : BitVec 8 := 0
  /-- TIME | 96 | R336 16 | - -/
  time : BitVec 96 := 0
  /-- DETAIL | 96 | R336 16 | - -/
  detail : BitVec 96 := 0
deriving DecidableEq, Repr

structure Mbox where
  /-- command ring, dword i of 1,024 | 32 each | R336 16 | 0 DC7 -/
  cmd : Tab (BitVec 32) := {}
  /-- response ring slot k of 64 | - | R336 16 | 0 DC7 -/
  rsp : Tab Rsp := {}
  /-- event ring slot k of 256 | - | R336 16 | 0 DC7 -/
  ev : Tab Ev := {}
  /-- MB_EXPECT_SEQ | 32 | R326 15, R339 16 | 0 -/
  expect : BitVec 32 := 0
  /-- MB_DONE_SEQ | 32 | R326 15, R339 16 | 0xFFFF_FFFF -/
  done : BitVec 32 := 0xFFFFFFFF
  /-- MB_IGNORED_COUNT | 32 | R326 15 | 0 -/
  ignored : BitVec 32 := 0
  /-- RSP_WRITE_SEQ | 32 | R326 15 | 0 -/
  rspW : BitVec 32 := 0
  /-- RSP_READ_SEQ | 32 | R326 15 | 0 -/
  rspR : BitVec 32 := 0
  /-- EVT_WRITE_SEQ | 32 | R326 15 | 0 -/
  evW : BitVec 32 := 0
  /-- EVT_READ_SEQ | 32 | R326 15 | 0 -/
  evR : BitVec 32 := 0
  /-- MB_IRQ_MASK | 2 | R326 15 | 0 -/
  irqMask : BitVec 2 := 0
  /-- accepted commands not yet started, oldest first | 64 at most | R337 16 | none -/
  accepted : List Cmd := []
  /-- a doorbell with the expected value is held | 1 | R338 16 | false -/
  heldBell : Bool := false
  /-- the command started and without a first response | - | R340 16 | none -/
  running : Option Cmd := none
  /-- the command whose first response is the latest to have found the ring full | - | R342, R350 16 | none -/
  owed : Option Cmd := none
  /-- responses due and waiting for room, oldest first | - | R342 16 | none -/
  waiting : List Rsp := []
  /-- event group mask, bits 1-11 | 12 | R347 16 | 0 (all written) DC7 -/
  evMask : BitVec 12 := 0
  /-- events dropped since the last EVENTS_LOST, time of the first | 32 + - | R347 16 | none -/
  dropped : Option (Nat × Nat) := none
  /-- DENIED_ACCESSES | 16 | R325 15 | 0 -/
  denied : BitVec 16 := 0
  /-- APERTURE_MISSES | 16 | R325 15 | 0 -/
  apMiss : BitVec 16 := 0
  /-- GATED_ACCESSES | 32 | R325 15 | 0 -/
  gatedAcc : BitVec 32 := 0
  /-- world of the host; the owner is secure whatever this holds | 1 | R436, R438 21 | non-secure -/
  world : Bool := false
deriving DecidableEq, Repr

structure Warden where
  /-- mailbox of host n | - | R326 15 | as Mbox -/
  mb : Tab Mbox := {}
  /-- SMBus pointer of host 4 | 24 | R335 15 | 0 DC7 -/
  smbPtr : Nat := 0
  /-- SMBALERT_N forced low at LOCKDOWN entry | 1 | R450 21 | false -/
  alertForced : Bool := false
  /-- QUEUED commands without a final response | - | R341 16 | none -/
  bg : List Bg := []
  /-- open DENIED windows: requester kind, index, resource kind, count, last index | - | R442 21 | none -/
  windows : List (Nat × Nat × Nat × Nat × Nat) := []
  /-- SCR_PAGE | 9 | R333 15 | 0 -/
  scrPage : BitVec 9 := 0
  /-- warden halted by a debugger | 1 | R465 22 | false -/
  halted : Bool := false
  /-- pending timed happenings: DEVICE_RESET delay after a response, with cause 3 | 1 | R422 20 | none -/
  resetDue : Bool := false
  /-- the mode before the last reset, until the warden has written the reset's MODE_CHANGED | 4 | R423 20 | 0 (power-on) -/
  boot : Option Nat := some 0
deriving DecidableEq, Repr

/-! ## Configuration loading and scrubbing (17, 18) -/

inductive LoadSrc where
  | flash | buffer | chain
deriving DecidableEq, Repr

structure Header where
  /-- KIND, CHAIN_POS, REV_MIN, FLAGS | 8 each | R358 17 | - -/
  kind : Nat
  chainPos : Nat
  enc : Bool
  keySrc : Bool
  /-- IMAGE_LENGTH, BLOCK_COUNT | 64, 32 | R358 17 | - -/
  length : Nat
  blocks : Nat
  /-- IV_BASE | 64 | R358 17 | - -/
  iv : List Byte
  /-- MEADOWS | 192 | R358 17 | - -/
  meadows : BitVec 192
  /-- FIRST_FRAME, LAST_FRAME | 16 each | R358 17 | - -/
  firstFrame : Nat
  lastFrame : Nat
  /-- digest the next block must have | 384 | R362 17 | - -/
  digest : List Byte
  /-- SHA-384 of the header (the AAD) | 384 | R361 17 | - -/
  aad : List Byte
  /-- BUILD_ID | 128 | R358 17 | - -/
  build : BitVec 128
deriving DecidableEq, Repr

structure Load where
  /-- source, handle, offset, length | - | R356, R370 17 | - -/
  src : LoadSrc
  handle : Nat := 0
  off : Nat := 0
  len : Nat := 0
  /-- the command answered by the load, none for a start-up load; its world | - | R370 17, R440 21 | - -/
  cmd : Option Bg := none
  world : Bool := false
  /-- the boot pointer table has been read | 1 | R369 17 | false -/
  ptr : Bool := false
  /-- a partial image (RECOAT_LOAD), and the meadows its header names | 1 + 192 | R378 18 | - -/
  recoat : Bool := false
  targets : List Nat := []
  /-- the load returns the device to SERVICE | 1 | R427 20 | - -/
  service : Bool := false
  /-- the fallback image is being tried, or none is left | 1 | R369 17 | - -/
  fallback : Bool := false
  /-- FALLBACK offset of the pointer table; 0 none | 64 | R369 17 | - -/
  fbOff : Nat := 0
  /-- header accepted | - | R359 17 | none -/
  hdr : Option Header := none
  /-- blocks authentic so far | 32 | R362 17 | 0 -/
  blk : Nat := 0
  /-- body of the block held, bytes still to act on | - | R362 17 | none -/
  body : List Byte := []
  /-- records may still follow in this block (no PAD or END yet) | 1 | R363 17 | - -/
  inBody : Bool := false
  /-- frames written, ESSMAP given (FA each) | - | R364 17 | none -/
  frames : List Nat := []
  essmaps : List Nat := []
  /-- frame address reached | 20 | R374 17 | 0 -/
  fa : Nat := 0
  /-- END has completed | 1 | R364 17 | false -/
  ended : Bool := false
  /-- the load has failed with this load cause and FULL_LOAD_FAILED follows | 7 | R374 17 | none -/
  failed : Option Nat := none
  /-- handle of the store the image is written to | 20 | R380 18 | none -/
  store : Option Nat := none
deriving DecidableEq, Repr

structure Readback where
  /-- the command | - | R394 18 | - -/
  cmd : Bg
  /-- meadow | 8 | R394 18 | - -/
  meadow : Nat
  /-- first frame and frames | 12 + 12 | R394 18 | - -/
  first : Nat
  count : Nat
  /-- destination handle and offset | 20 + 36 | R394 18 | - -/
  handle : Nat
  off : Nat
  /-- world of the command | 1 | R440 21 | - -/
  world : Bool
  /-- frames read, and of them the frames whose destination write ended OK | 12 + 12 | R395 18 | 0 -/
  done : Nat := 0
  written : Nat := 0
  /-- frames read that held a check-bit error | 12 | R395 18 | none -/
  ecc : List Nat := []
  /-- first frame read from the plane made live by a swap during the readback | 12 | R395 18 | none -/
  newFrom : Option Nat := none
deriving DecidableEq, Repr

/-- A configuration flash. -/
structure Flash where
  /-- its bytes, under a 32-bit address | 4 GiB | R368 17 | erased 0xFF DC8 -/
  mem : Mem := { dflt := 0xFF }
  /-- it gives a valid SFDP table | 1 | R368 17 | true DC9 -/
  sfdp : Bool := true
  /-- it offers 8D-8D-8D | 1 | R368 17 | true DC9 -/
  octal : Bool := true
  /-- switched from 1S-1S-1S to 8D-8D-8D | 1 | R368 17 | false -/
  switched : Bool := false
deriving DecidableEq, Repr

structure Loader where
  /-- the load running | - | R375 17 | none -/
  job : Option Load := none
  /-- recoat loads waiting, oldest first | - | R375 17 | none -/
  queue : List Load := []
  /-- flash 0, flash 1 | - | R356, R368 17 | as Flash -/
  flash0 : Flash := {}
  flash1 : Flash := {}
  /-- position in the chain, once known; above 7 it ends a chain load | 4 | R372 17 | none -/
  pos : Option Nat := none
  /-- forwarding of the chain stream goes on; the flash stream's offset behind the own image, none for an upstream device's stream
  | 1 + 33 | R373 17 | false, none -/
  forward : Bool := false
  fwdAt : Option Nat := none
  /-- loader's working copy of the eFuse key is held | 1 | R360 17 | false -/
  keyCopy : Bool := false
  /-- CONFIG_READBACK in progress or waiting, oldest first | - | R394 18 | none -/
  readback : List Readback := []
deriving DecidableEq, Repr

structure Scrubber where
  /-- meadow (0-47) in which the pass stands | 6 | R389 18 | 0 DC7 -/
  meadow : Nat := 0
  /-- a pass has ended and the undercoat turn is due | 1 | R392 18 | false -/
  turn : Bool := false
  /-- last undercoat checked | 6 | R392 18 | 47 DC7 -/
  lastUnder : Nat := 47
  /-- passes completed | 64 | R396 18 | 0 -/
  passes : BitVec 64 := 0
  /-- last pass time, us | 64 | R396 18 | 0 -/
  passUs : Nat := 0
  /-- timeline since when the pass runs; its time before that | - | R396 18 | none, 0 -/
  passStart : Option Nat := none
  passRan : Nat := 0
  /-- REPAIRED_ECC | 32 | R396 18 | 0 -/
  ecc : BitVec 32 := 0
  /-- REPAIRED_STORE | 16 | R396 18 | 0 -/
  stored : BitVec 16 := 0
  /-- FAULTS | 16 | R396 18 | 0 -/
  faults : BitVec 16 := 0
  /-- frame awaiting its rebuild: meadow, frame, undercoat flag, classification | - | R390 18 | none -/
  rebuild : Option (Nat × Nat × Bool × BitVec 3) := none
deriving DecidableEq, Repr

/-! ## Clocks (spec/19_clocks.md) -/

structure FLoop where
  /-- ARG1 settings in force: REF, RDIV, N_INT, N_FRAC, O0, O1 | 64 | R406 19 | 0 (off) -/
  a1 : BitVec 64 := 0
  /-- ARG2 settings in force: TL_STEER, SS_RATE, SS_DEPTH | 64 | R406 19 | 0 -/
  a2 : BitVec 64 := 0
  /-- LOCKED | 1 | R417 19 | 0 -/
  locked : Bool := false
  /-- REF_LOST | 1 | R417 19 | 0 -/
  refLost : Bool := false
  /-- LOSS | 1 | R417 19 | 0 -/
  loss : Bool := false
  /-- multiplier scaled by 6/5 in coast | 1 | R407 19 | false -/
  scaled : Bool := false
deriving DecidableEq, Repr

structure GClk where
  /-- SRC | 8 | R417 19 | 0x09 -/
  src : BitVec 8 := 0x09
  /-- SWITCHING: source being switched to and the command | 1 | R417 19 | none -/
  sw : Option (BitVec 8 × Bg) := none
  /-- SWITCH_FORCED | 1 | R417 19 | 0 -/
  forced : Bool := false
  /-- STOPPED | 1 | R417 19 | 0 -/
  stopped : Bool := false
  /-- SWITCHES | 16 | R417 19 | 0 -/
  switches : BitVec 16 := 0
deriving DecidableEq, Repr

structure Clocks where
  /-- CLK_SRC_READY by source code | 1 each | R417 19 | 0 -/
  ready : Tab Bool := {}
  /-- CLK_SRC_DEAD by source code | 1 each | R417 19 | 0 -/
  dead : Tab Bool := {}
  /-- declared dead and not ready again since | 1 each | R401, R416 19 | false -/
  gone : Tab Bool := {}
  /-- PREF | 8 | R417 19 | 0x03 -/
  pref : BitVec 8 := 0x03
  /-- REF | 8 | R417 19 | 0x00 -/
  ref : BitVec 8 := 0
  /-- LOCKED | 1 | R417 19 | 0 -/
  locked : Bool := false
  /-- COAST | 1 | R417 19 | 0 -/
  coast : Bool := false
  /-- REF_FASTOSC | 1 | R417 19 | 0 -/
  fast : Bool := false
  /-- TRIMMED | 1 | R417 19 | 0 -/
  trimmed : Bool := false
  /-- COASTS | 16 | R417 19 | 0 -/
  coasts : BitVec 16 := 0
  /-- the loop holds its control value after losing its reference | 1 | R403 19 | false -/
  holding : Bool := false
  /-- trims of 1 ms since the loop locked to a crystal input, 1,000 at most | 10 | R402, R405 19 | 0 -/
  trims : Nat := 0
  /-- a move to another reference is due | 1 | R404 19 | false -/
  move : Bool := false
  /-- fabric loop l | - | R406 19 | off -/
  loop : Tab FLoop := {}
  /-- global clock 16h + n | - | R410 19 | housekeeping tap -/
  gclk : Tab GClk := {}
  /-- gates with a request CLOSING: gate code, command | - | R414 19 | none -/
  closing : List (Nat × Bg) := []
  /-- heritage serial ports, user flash gates | 2 each | R417 19 | OPEN -/
  serial : GateState := .opened
  flash : GateState := .opened
  /-- FREQ_MEASURE running: source, command | - | R416 19 | none -/
  meas : List (BitVec 8 × Bg) := []
deriving DecidableEq, Repr

/-! ## Power, modes, lifecycle, debug, pins (20-24) -/

inductive Mode where
  | boot | load | run | hold | service | lockdown
deriving DecidableEq, Repr

structure Straps where
  /-- CFG_SRC | 2 | R356 17 | 0b01 DC9 -/
  cfgSrc : BitVec 2 := 1
  /-- PRECFG_PULL | 1 | R356 17 | 0 DC9 -/
  pull : Bool := false
  /-- OWNER_SEL | 3 | R438 21 | 0 DC9 -/
  owner : BitVec 3 := 0
  /-- PCIE_BIF_A, PCIE_BIF_B | 1 each | R320 15 | 0 DC9 -/
  bifA : Bool := false
  bifB : Bool := false
  /-- SMB_ADDR | 2 | R335 15 | 0 DC9 -/
  smb : BitVec 2 := 0
  /-- XA_EXT, XB_MODE, XA_FSEL, XB_FSEL | 1+2+3+3 | R399 19 | 0 DC9 -/
  xaExt : Bool := false
  xbMode : BitVec 2 := 0
  xaSel : BitVec 3 := 1
  xbSel : BitVec 3 := 1
deriving DecidableEq, Repr

structure Power where
  /-- ID_DEVICE.MODE | 4 | R325 15, R427 20 | BOOT -/
  mode : Mode := .boot
  /-- straps as sampled | - | R420 20 | as Straps DC9 -/
  straps : Straps := {}
  /-- straps as the pins stand now | - | R420 20 | as Straps DC9 -/
  pins : Straps := {}
  /-- owner host, fixed at always-on power good | 3 | R438 21 | 0 (OWNER_SEL 0, DC9) -/
  owner : Nat := 0
  /-- rails not good | - | R418 20 | none (reset follows power good, R422) -/
  down : List RailId := []
  /-- latest reset cause | 8 | R423 20 | 0x01 -/
  cause : BitVec 8 := 1
  /-- LOCK_CAUSE | 8 | R325 15 | 0 -/
  lockCause : BitVec 8 := 0
  /-- CFG_ERR | 1 | R325 15 | 0 -/
  cfgErr : Bool := false
  /-- LOAD_CAUSE | 7 | R325 15 | 0 -/
  loadCause : BitVec 7 := 0
  /-- CFG_DONE released | 1 | R356 17 | driven low -/
  cfgDone : Bool := false
  /-- CFG_ERR_N driven low | 1 | R356 17 | released -/
  cfgErrN : Bool := false
  /-- CORE_RET_REQ high | 1 | R430 20 | low -/
  retReq : Bool := false
  /-- global hold asserted | 1 | R65 03 | asserted -/
  ghold : Bool := true
  /-- fabric clocks released at the meadows | 1 | R66 03 | held off -/
  fabClk : Bool := false
  /-- HOLD entry in progress: the MODE_SET command | - | R429 20 | none -/
  entering : Option Bg := none
  /-- wake instants armed, 2^-32 ns: that of a given wake time and that of the earliest cue | - | R47 02, R432 20 | none -/
  wakes : List Nat := []
  /-- HOLD exit in progress | 1 | R432 20 | false -/
  exiting : Bool := false
  /-- HOLD_WAKE_N has been low during HOLD entry: the wake waits for HOLD | 1 | R429 20, R432 | false -/
  wakeN : Bool := false
  /-- a device reset of this cause has fallen due during HOLD entry and waits for HOLD | 8 | R429 20 | none -/
  lateReset : Option (BitVec 8) := none
  /-- waking MODE_SET commands without a final response | - | R432 20 | none -/
  wakeCmds : List Bg := []
  /-- VCC_CORE at its retention level, not yet declared good again | 1 | R430 20 | false -/
  coreLow : Bool := false
  /-- LOCKDOWN core-domain steps wait for VCC_CORE | 1 | R506 21 | false -/
  lockPend : Bool := false
  /-- heaths numbered by trained die edges 0-1, 1-2, 2-3 | 3 | R434 20 | none -/
  edges : List Nat := []
  /-- start-up lane calibration has ended | 1 | R305 14 | false -/
  laneCal : Bool := false
  /-- start-up step 7 waits for a boundary-scan test instruction to end | 1 | R455 22 | false -/
  loadWait : Bool := false
deriving DecidableEq, Repr

inductive Life where
  | blank | opened | sealed | returned | scrapped
deriving DecidableEq, Repr

structure Secure where
  /-- lifecycle state | 4 | R443 21 | BLANK DC9 (fused) -/
  life : Life := .blank
  /-- the lifecycle fuse word completely programmed and not yet read by a start-up | - | R447 21 | none -/
  fused : Option Life := none
  /-- the lifecycle fuse word reads back as no defined state | 1 | R447 21 | false DC9 (fused) -/
  badWord : Bool := false
  /-- ID_SERIAL | 64 | R325 15 | 1 DC9 (fused, never zero) -/
  serial : BitVec 64 := 1
  /-- SPEED, TEMP | 4 + 4 | R325 15 | 1, 0 DC9 (fused) -/
  speed : BitVec 4 := 1
  temp : BitVec 4 := 0
  /-- owner key hash fuses | 384 | R357 17 | none DC9 -/
  ownerHash : List Byte := []
  /-- subsystem vendor and device ID | 16 + 16 | R321 15 | 0 -/
  subsys : BitVec 32 := 0
  /-- key-source selection fuse: key RAM | 1 | R360 17 | eFuse key DC9 -/
  keySrc : Bool := false
  /-- OWNER_HOST fuse | 3 | R438 21 | 0 DC9 -/
  ownerFuse : BitVec 3 := 0
  /-- TAMPER_EN fuse | 4 | R448 21 | 0 DC9 -/
  tamperEn : BitVec 4 := 0
  /-- eFuse key | 256 | R360 17 | not programmed DC9 -/
  efuse : Option (BitVec 256) := none
  /-- key RAM key | 256 | R360 17 | none DC9 -/
  keyRam : Option (BitVec 256) := none
  /-- VBAT at or above 1.2 V | 1 | R360 17 | false DC9 -/
  vbat : Bool := false
  /-- outstanding challenge | 128 | R466 22 | none -/
  chal : Option (BitVec 128) := none
  /-- ordinal of the next challenge drawn from the warden's random source | - | R466 22 | 0 DC7 -/
  chalSeq : Nat := 0
  /-- FAIL_COUNT | 4 | R456 22 | 0 -/
  fails : BitVec 4 := 0
  /-- consecutive failures since power-on, not saturated | - | R448 21 | 0 -/
  failRun : Nat := 0
  /-- response being verified: DEBUG_UNLOCK command, or none for the port's | - | R467 22 | none -/
  verifying : Option (Option Bg) := none
  /-- UNLOCKED | 1 | R456 22 | 0 -/
  unlocked : Bool := false
  /-- LIFECYCLE_ADVANCE in progress: command, target, authorisation block | - | R446 21 | none -/
  adv : Option (Bg × Life × List Byte) := none
deriving DecidableEq, Repr

/-- A JTAG instruction held by the instruction register (R454). -/
inductive Jtag where
  | extest | idcode | sample | clamp | highz | extestPulse | extestTrain | dbgStatus | dbgChallenge | dbgResponse
  | dbgAccess | keyProgram | bypass
deriving DecidableEq, Repr

structure Debug where
  /-- instruction register | 8 | R454 22 | IDCODE -/
  ir : Jtag := .idcode
  /-- boundary-scan register: cells preloaded or sampled | - | R455 22 | 0 DC7 -/
  bsr : List Bool := []
  /-- LAST_RESULT | 4 | R456 22 | 0xF -/
  last : BitVec 4 := 0xF
  /-- REFUSED | 16 | R456 22 | 0 -/
  refused : BitVec 16 := 0
  /-- address of the last operation, read data, status of DBG_ACCESS | 64+64+4 | R457 22 | 0, 0, 0xF -/
  addr : BitVec 64 := 0
  data : BitVec 64 := 0
  status : BitVec 4 := 0xF
  /-- address that the last operation left | 64 | R457 22 | 0 DC7 -/
  next : BitVec 64 := 0
  /-- address of the DBG_ACCESS operation in progress | 64 | R457 22 | none -/
  op : Option (BitVec 64) := none
  /-- KEY_PROGRAM in progress: target, key | - | R470 22 | none -/
  key : Option (BitVec 8 × BitVec 256) := none
deriving DecidableEq, Repr

inductive PinFault where
  | vccio | short
deriving DecidableEq, Repr

/-- What a pin drives: its level when the output is enabled, its pull (PULL codes of R475), its standard. -/
structure PinDrive where
  /-- output level, none when high-impedance | 1 + 1 | R478 23 | high-impedance -/
  out : Option Bool := none
  /-- pull | 2 | R475, R478 23 | none -/
  pull : BitVec 2 := 0
  /-- standard | 4 | R475 23 | 0 -/
  std : BitVec 4 := 0
deriving DecidableEq, Repr

structure Pin where
  /-- fault | 2 | R473, R479 23 | none -/
  fault : Option PinFault := none
  /-- I/O registers and delay taps | - | R476, R477 23 | OINIT, OEINIT -/
  reg : IoReg := {}
  /-- level at the pad | 1 | R474 23 | 0 DC9 -/
  pad : Bool := false
  /-- output, pull and standard held through masking and HOLD | - | R478 23 | high-impedance -/
  held : PinDrive := {}
deriving DecidableEq, Repr

structure Bank where
  /-- SHORTS | 16 | R481 23 | 0 -/
  shorts : BitVec 16 := 0
  /-- VCCIO_MV | 12 | R481 23 | 0 -/
  mv : BitVec 12 := 0
deriving DecidableEq, Repr

structure Serial where
  /-- receive FIFO, oldest first | 64 bytes | R483 23 | empty -/
  rx : List Byte := []
  /-- transmit FIFO: DATA writes with the I2C bits, oldest first | 64 places | R483 23 | empty -/
  tx : List (BitVec 13) := []
  /-- CTRL | 32 | R483 23 | 0 -/
  ctrl : BitVec 32 := 0
  /-- ERR | 4 | R483 23 | 0 -/
  err : BitVec 4 := 0
deriving DecidableEq, Repr

structure Io where
  /-- pin 48 bank + p | - | R472 23 | unfaulted -/
  pin : Tab Pin := {}
  /-- GPIO bank | - | R481 23 | 0 -/
  bank : Tab Bank := {}
  /-- controllers: UART 0-3, SPI 4-5, I2C 6-7 | - | R483 23 | 0 -/
  ser : Tab Serial := {}
  /-- user flash: byte 2,048 page + offset | 8 each | R484 23 | erased 0xFF DC8 -/
  uf : Mem := { dflt := 0xFF }
  /-- program buffer | 2 KiB | R484 23 | 0 DC7 -/
  ufBuf : Mem := {}
  /-- UF_BANK | 4 | R484 23 | 0 (device reset, R483) DC7 -/
  ufBank : BitVec 4 := 0
  /-- operation in progress: operation, page | - | R484 23 | none -/
  ufOp : Option (BitVec 2 × BitVec 8) := none
  /-- page of the last command | 8 | R484 23 | 0 DC7 -/
  ufPage : BitVec 8 := 0
  /-- DONE, ERROR, WORN | 1 each | R484 23 | 0 DC7 -/
  ufDone : Bool := false
  ufErr : Bool := false
  ufWorn : Bool := false
  /-- erase count of page p | - | R484 23 | 0 DC7 -/
  ufErases : Tab Nat := {}
deriving DecidableEq, Repr

/-! ## What leaves the device -/

/-- A packet as it leaves on a path (R269, R289): port and addresses of the path, RTP fields, payload. -/
structure Sent where
  port : Nat
  srcMac : BitVec 48
  dstMac : BitVec 48
  vlan : BitVec 12
  dscp : BitVec 6
  ttl : BitVec 8
  srcIp : BitVec 32
  dstIp : BitVec 32
  srcUdp : BitVec 16
  dstUdp : BitVec 16
  pt : BitVec 7
  seq : BitVec 32
  ts : BitVec 32
  marker : Bool
  ssrc : BitVec 32
  body : Body
  /-- octets of padding to the shortest frame, and the FCS behind them (R310) -/
  pad : Nat := 0
  fcs : BitVec 32 := 0
deriving DecidableEq, Repr

/-- An SDI line as the framer sends it (R314). -/
structure SdiOut where
  /-- the line number -/
  line : Nat
  /-- TRS: the words of EAV and SAV -/
  eav : List (BitVec 10)
  sav : List (BitVec 10)
  /-- active samples: none is black -/
  picture : Option (List Byte)
  anc : List AncPkt
  /-- ST 352 payload identifier -/
  payloadId : Option (BitVec 32)
  /-- the blanking samples of Y and C -/
  blankY : BitVec 10 := 0x040
  blankC : BitVec 10 := 0x200
  /-- line CRCs of Y and C, on HD and faster standards -/
  crc : Option (BitVec 36)
deriving DecidableEq, Repr

/-- Messages and data that leave the block, in order: the model's own record of its outputs. -/
inductive Out where
  /-- MSI-X message of a vector to a host (R327) -/
  | msix (host vector : Nat)
  /-- data completing a host's BAR0 or BAR2 read (R324, R225) -/
  | read (host : Nat) (data : List Byte)
  /-- completion of a PCIe configuration request: retry status or value (R321) -/
  | cfg (host : Nat) (value : Option (BitVec 32))
  /-- SMBus bytes returned, or not acknowledged (R335) -/
  | smb (data : Option (List Byte))
  /-- JTAG data register captured, of a length (R454) -/
  | jtag (len value : Nat)
  /-- what a boundary-scan test drives on the pins, by cell; on the lane pins as a pulse or a train (R308, R455) -/
  | scanned (cells : List Bool)
  | scannedLanes (train : Bool) (cells : List Bool)
  /-- own position sent in the training sequence of the chain link (R372) -/
  | chainPos (pos : Nat)
  /-- the chain stream goes on downstream, unchanged: the flash stream from an offset, or what arrives from upstream behind the own
  image (R373) -/
  | chainForward (flashOff : Option Nat)
  /-- packet sent by a context on a path at its due time (R289) -/
  | packet (ctx path due : Nat) (sent : Sent)
  /-- IGMPv3 source-specific membership report on a port: group and source; its padding and FCS (R270, R310) -/
  | igmp (port : Nat) (group source : BitVec 32) (pad : Nat) (fcs : BitVec 32)
  /-- SDI line sent by a port (R314) -/
  | sdi (port : Nat) (sent : SdiOut)
  /-- byte sent by a heritage controller (R483) -/
  | serial (ctl : Nat) (word : BitVec 13)
  /-- PTP Delay_Req sent on a port block, with its FCS (R27, R310) -/
  | delayReq (block : Nat) (fcs : BitVec 32)
  /-- credit-return message to a hedgerow source: source, queue, count (R124) -/
  | credit (src : BitVec 32) (queue count : Nat)
  /-- request that a gate issues to a fabric target, or presents there (R211) -/
  | target (meadow : Nat) (write : Bool) (off : Nat) (world peek : Bool)
deriving DecidableEq, Repr

/-! ## The whole block -/

structure State where
  /-- commands waiting, first in first out: the model's own field | - | log 1 | empty -/
  pending : List Instr := []
  /-- timeline, grids, cues, tick generators | - | 02 | as Timeline -/
  tl : Timeline := {}
  /-- meadow by global number | - | 03-06, 10, 18 | as Meadow -/
  fab : Tab Meadow := {}
  /-- hardware queues and queue windows | - | 06 | as Queues -/
  que : Queues := {}
  /-- on-chip memories | - | 05, 08 | as Mems -/
  mem : Mems := {}
  /-- stipple engines and schedulers | - | 08, 09 | as Stipple -/
  stp : Stipple := {}
  /-- hedgerow network | - | 10 | as Hedgerow -/
  hg : Hedgerow := {}
  /-- pool manager | - | 10 | as Pool -/
  pool : Pool := {}
  /-- HBM controllers and contents | - | 11 | as Hbm -/
  hbm : Hbm := {}
  /-- scrim engine | - | 12 | as Scrim -/
  scrim : Scrim := {}
  /-- swathe engines, Ethernet, lanes, SDI | - | 13, 14 | as Net -/
  net : Net := {}
  /-- PCIe link of host n, 0-3 | - | 15 | as PcieLink -/
  pcie : Tab PcieLink := {}
  /-- warden, mailboxes, event rings | - | 15, 16, 21 | as Warden -/
  wrd : Warden := {}
  /-- configuration loader and readback | - | 17, 18 | as Loader -/
  ldr : Loader := {}
  /-- scrubber of heath h | - | 18 | as Scrubber -/
  scr : Tab Scrubber := {}
  /-- clock unit | - | 19 | as Clocks -/
  clk : Clocks := {}
  /-- power, resets, modes | - | 20 | as Power -/
  pwr : Power := {}
  /-- lifecycle, fuses, keys | - | 21, 22 | as Secure -/
  sec : Secure := {}
  /-- debug domain | - | 22 | as Debug -/
  dbg : Debug := {}
  /-- I/O cells, heritage block | - | 23 | as Io -/
  io : Io := {}
  /-- counter of the free values drawn: the model's own field | - | log 10 | 0 DC10 -/
  free : Nat := 0
  /-- what has left the block, oldest first: the model's own field | - | log 1 | empty -/
  out : List Out := []
deriving DecidableEq, Repr

/-- The machine right after a power-on reset (R422): every rail good, the mode BOOT, start-up step 1 beginning, and
every field at the value its docstring gives. -/
def State.reset : State := {}

/-- Why a run stops. -/
inductive Fault where
  /-- A translated access reached a line with LA[24:23] = 0b11 or beyond the stack, which does not exist (R229); raised by
  the buffer accesses, the copies of a migration and the fills. Safe: the pool manager never issues one. -/
  | noSuchLine
deriving DecidableEq, Repr

/-- Why a command has no meaning. -/
inductive Refusal where
  /-- A command this model gives no meaning. Safe: nothing can be proved of it. -/
  | notModelled (mnemonic : String)
deriving DecidableEq, Repr

end Sys2Proof.Machine
end

