-- ==== Sys2Proof/Config.lean ====
section
/-! DEFINITION. What the spec leaves open, as constants without a body, and what an implementation fixes. Nothing can be
proved of the value of an opaque constant: a statement about it holds for every value. -/

namespace Sys2Proof.Config

open Sys2Proof.Machine

/-- The free values: the counter `State.free` picks the next one (log 10). -/
opaque freeValue : Nat → BitVec 64

/-- SEVERITY of an event code: R336 gives the values 0 to 2 and no event's own one (log 6). -/
opaque eventSeverity : BitVec 16 → Fin 3

/-- DETAIL of an event whose layout no rule gives, from the values R348 names in order (log 6). -/
opaque eventDetail : BitVec 16 → List Nat → BitVec 96

/-- Where the fields lie in the frames of a plane: the spec gives the fields and not their places (log 5). The frames are those
not all zero, in rising order. -/
opaque layout : List (Nat × BitVec 4096) → Personality

/-- The device's wiring: the signal at the input that a code of a multiplexer selects, by the multiplexer's number in its meadow.
It is one for every meadow, plane and frame (R61, R76; log 5). -/
opaque muxInput : Nat → Nat → Sig

/-- The width of the select field of the multiplexer whose number is `key` (R76, R135). -/
def selWidth (key : Nat) : Nat :=
  match key % 16 with
  | 3 => [5, 5, 5, 4, 3, 3, 3, 0].getD (key / 16 / 32 % 8) 0
  | 4 => if key / 16 / 512 % 2 = 1 then 3 else 4
  | 5 | 6 | 9 | 11 | 12 => 4
  | _ => 6

/-- A select field at its width, with the signal that the wiring puts at the input of its code. -/
def wired (e : Nat × SelCfg) : Nat × SelCfg :=
  let c := e.2.code.toNat % 2 ^ selWidth e.1
  (e.1, { code := BitVec.ofNat 6 c, src := muxInput e.1 c })

/-- What the frames of a meadow's plane mean. Frames of zeros give every field the value zero (R364). -/
def decodeFrames (l : List (Nat × BitVec 4096)) : Personality :=
  if l = [] then {} else { layout l with sel := ⟨(layout l).sel.ents.map wired⟩ }

/-- SHA-384 (R359), ECDSA P-384 verification of key, message, signature (R359, R445, R467) and AES-256-GCM decryption of
key, IV, additional data, ciphertext, tag (R361), uninterpreted (log 6). -/
opaque sha384 : List Byte → List Byte
opaque ecdsaVerify : List Byte → List Byte → List Byte → Bool
opaque gcmDecrypt : BitVec 256 → List Byte → List Byte → List Byte → List Byte → Option (List Byte)

/-- SHA-384 of the Lommal return key, held in ROM (R357, R443). -/
opaque returnKeyHash : List Byte

/-- The n-th challenge drawn from the warden's random source (R466). -/
opaque challenge : Nat → BitVec 128

/-- The two images of a stipple row: instructions and initial data memory, for the lead engine and for the others (R152). -/
structure RowImage where
  leadCode : List (BitVec 64)
  code : List (BitVec 64)
  leadData : List Byte
  data : List Byte

/-- The row images that the bytes of a ROW_LOAD image give, or none when malformed (R152; the format is not given: log 6). -/
opaque rowImage : List Byte → Option RowImage

/-- Placement inside a pseudo-channel or screed block: where the search for a free granule begins (R218; log 15). -/
opaque granuleStart : Nat → Nat

/-- Frequency in Hz that the board puts on a lane reference pair (codes 0x10-0x1B) or a clock-capable pin (0x40-0x5F)
(R298, R398: the board's choice; log 9). -/
opaque sourceHz : Nat → Nat

/-- Whether a quotient that is not exact is rounded up, where the spec states no rounding: the place it arises, and its
operands (log 10). -/
opaque roundUp : Nat → Nat → Nat → Bool

/-- A result word whose layout no rule gives, from the values R353 names: the command's code, the word, the values (log 6). -/
opaque resultWord : Nat → Nat → List Nat → Nat

/-- The span, in 2^-32 ns, over which a port block takes the packet rate and the line rate of what arrives (R267 gives none:
log 22). -/
opaque rateSpan : Nat

/-- Destination MAC address of a unicast destination whose context gives none: R269 derives it for multicast only (log 22). -/
opaque macOf : BitVec 32 → BitVec 48

/-- Spacing, in 2^-32 ns, of the packets of a frame of an ANC egress context, of which R291 places the first only; its parameter
block and the packets of the frame (log 22). -/
opaque ancSpacing : List (BitVec 64) → Nat → Nat

/-- The PMD of an Ethernet port (8 block + port) trains its links, with auto-negotiation: the board's choice (R300, R309; log 9). -/
opaque pmdTrains : Nat → Bool

/-- Wire bits and packets per second that a PASS or ANC egress context reserves, whose frames have no stated number of
packets (R290); its parameter block (log 22). -/
opaque openRate : List (BitVec 64) → Nat × Nat

/-- Spacing TRS, in 2^-32 ns, of a gapped PASS context, to which the spec gives no HEIGHT (R288); its parameter block and
the packets of the frame (log 22). -/
opaque passSpacing : List (BitVec 64) → Nat → Nat

/-- Dwords at which the PCI Express, power management, MSI-X and advanced error reporting capabilities of a host port begin: the
device gives their places, which the spec does not (R319; log 27). -/
opaque capPcie : Nat
opaque capPm : Nat
opaque capMsix : Nat
opaque capAer : Nat

/-- The boundary-scan cells of a user pin: its level and its output enable (R455: the order of the cells is given in a file
outside the spec; log 28). -/
opaque scanCell : Nat → Nat × Nat

/-- The boundary-scan cells of the serial lane pins (R308, R455; log 28). -/
opaque laneCells : List Nat

/-- FCS of the frame that carries a packet of a context, a membership report (port, group, source), a Delay_Req of a port block:
IEEE 802.3 gives the code, other standards the frames' octets (R310; log 23). -/
opaque packetFcs : Sent → BitVec 32
opaque reportFcs : Nat → BitVec 32 → BitVec 32 → BitVec 32
opaque delayReqFcs : Nat → BitVec 32

/-- Line CRCs of Y and C over the words of a line (R314): the standards of R312 give the code (log 23). -/
opaque lineCrc : SdiOut → BitVec 36

/-- ST 352 payload identifier of a standard and format (layout of block word 0x38): ST 352 itself gives it (log 23). -/
opaque payloadId : Nat → Nat → BitVec 32

end Sys2Proof.Config
end

