-- ==== Sys2Proof/Machine/Tab.lean ====
section
/-! DEFINITION. The sparse tables, the byte memories and the bit-field helpers that every meaning uses. -/

namespace Sys2Proof

/-! ## Entries in rising key order -/

/-- Put `v` at key `k`, in place of any entry there. -/
def insertEnt {α : Type} (k : Nat) (v : α) : List (Nat × α) → List (Nat × α)
  | [] => [(k, v)]
  | (j, w) :: r =>
    if k < j then (k, v) :: (j, w) :: r
    else if k = j then (k, v) :: r
    else (j, w) :: insertEnt k v r

/-- Remove the entry at key `k`. -/
def eraseEnt {α : Type} (k : Nat) (l : List (Nat × α)) : List (Nat × α) := l.filter fun e => e.1 != k

/-- What key `k` holds, if it is listed. -/
def lookupEnt {α : Type} (k : Nat) : List (Nat × α) → Option α
  | [] => none
  | (j, w) :: r => if k = j then some w else lookupEnt k r

/-- Keys strictly rise and no entry equals the value `d` of an unlisted key. -/
def canonEnts {α : Type} [DecidableEq α] (d : α) (l : List (Nat × α)) : Bool :=
  decide (l.Pairwise fun a b => a.1 < b.1) && l.all fun e => decide (e.2 ≠ d)

/-- What unit `k` holds: `d` when it is not listed. -/
def Tab.get {α : Type} (d : α) (t : Tab α) (k : Nat) : α := (lookupEnt k t.ents).getD d

/-- Give unit `k` the contents `v`. -/
def Tab.set {α : Type} [DecidableEq α] (d : α) (t : Tab α) (k : Nat) (v : α) : Tab α :=
  if v = d then ⟨eraseEnt k t.ents⟩ else ⟨insertEnt k v t.ents⟩

/-- Change what unit `k` holds by `f`. -/
def Tab.upd {α : Type} [DecidableEq α] (d : α) (t : Tab α) (k : Nat) (f : α → α) : Tab α := t.set d k (f (t.get d k))

/-- The canonical form of a table. -/
def Tab.wf {α : Type} [DecidableEq α] (d : α) (t : Tab α) : Bool := canonEnts d t.ents

/-- The units listed: every other one holds the default. -/
def Tab.keys {α : Type} (t : Tab α) : List Nat := t.ents.map (·.1)

/-- Set units `k`, `k + 1`, … to the values of a list. -/
def Tab.setFrom {α : Type} [DecidableEq α] (d : α) (t : Tab α) (k : Nat) : List α → Tab α
  | [] => t
  | v :: r => (t.set d k v).setFrom d (k + 1) r

/-- Drop the units for which `p` holds. -/
def Tab.drop {α : Type} (t : Tab α) (p : Nat → Bool) : Tab α := ⟨t.ents.filter fun e => !p e.1⟩

namespace Machine

/-! ## Byte memories -/

/-- The byte at address `a`. -/
def Mem.read (m : Mem) (a : Nat) : Byte := (lookupEnt a m.cells).getD m.dflt

/-- Write a byte at address `a`; the value an unlisted byte reads as removes the entry. -/
def Mem.write (m : Mem) (a : Nat) (b : Byte) : Mem :=
  if b = m.dflt then { m with cells := eraseEnt a m.cells } else { m with cells := insertEnt a b m.cells }

/-- The canonical form of a memory. -/
def Mem.wf (m : Mem) : Bool := canonEnts m.dflt m.cells

/-- `n` bytes from address `a` on. -/
def Mem.readN (m : Mem) (a : Nat) : Nat → List Byte
  | 0 => []
  | n + 1 => m.read a :: m.readN (a + 1) n

/-- Write the bytes of a list from address `a` on. -/
def Mem.writeN (m : Mem) (a : Nat) : List Byte → Mem
  | [] => m
  | b :: r => (m.write a b).writeN (a + 1) r

/-- Write those bytes of a list whose byte enable is set. -/
def Mem.writeBe (m : Mem) (a : Nat) : List Byte → List Bool → Mem
  | b :: r, e :: q => (if e then m.write a b else m).writeBe (a + 1) r q
  | _, _ => m

/-- Drop the bytes of `n` addresses from `a` on: they read as the default again. -/
def Mem.clear (m : Mem) (a n : Nat) : Mem := { m with cells := m.cells.filter fun e => e.1 < a || a + n ≤ e.1 }

/-! ## Numbers, bytes and bit fields (little-endian throughout: R18, spec/01) -/

/-- The number a list of bytes spells, least significant first. -/
def leNat : List Byte → Nat
  | [] => 0
  | b :: r => b.toNat + 256 * leNat r

/-- The `n` bytes of a number, least significant first. -/
def leBytes : Nat → Nat → List Byte
  | 0, _ => []
  | n + 1, v => BitVec.ofNat 8 v :: leBytes n (v / 256)

/-- Bits [lo+len-1:lo] of a number. -/
def fld (v lo len : Nat) : Nat := v / 2 ^ lo % 2 ^ len

/-- Place a value at bit `lo`. -/
def put (v lo : Nat) : Nat := v * 2 ^ lo

/-- Sum of fields given as (value, low bit). -/
def pack (l : List (Nat × Nat)) : Nat := (l.map fun p => put p.1 p.2).foldl (· + ·) 0

/-- A Boolean as a bit. -/
def bit (b : Bool) : Nat := if b then 1 else 0

/-- The signed value of the low `n` bits of `v`. -/
def sgn (n v : Nat) : Int := if v % 2 ^ n < 2 ^ (n - 1) then (v % 2 ^ n : Nat) else ((v % 2 ^ n : Nat) : Int) - 2 ^ n

/-- An integer as `n` two's-complement bits. -/
def unsgn (n : Nat) (v : Int) : Nat := (v % 2 ^ n).toNat

/-- Saturating increment of a counter. -/
def satInc {n : Nat} (c : BitVec n) : BitVec n := if c = BitVec.allOnes n then c else c + 1

/-- Saturating addition to a counter. -/
def satAdd {n : Nat} (c : BitVec n) (k : Nat) : BitVec n :=
  if c.toNat + k < 2 ^ n then BitVec.ofNat n (c.toNat + k) else BitVec.allOnes n

/-- Overwrite the bytes of `old` whose enable is set. -/
def merge : List Byte → List Byte → List Bool → List Byte
  | o :: os, d :: ds, e :: es => (if e then d else o) :: merge os ds es
  | os, _, _ => os

/-- Apply a state change for each element of a list, first to last. -/
def each {α σ : Type} (l : List α) (f : α → σ → σ) (s : σ) : σ := l.foldl (fun s a => f a s) s

/-- Replace element `i` of a list. -/
def setAt {α : Type} (l : List α) (i : Nat) (v : α) : List α := l.set i v

end Machine
end Sys2Proof
end

