-- ==== Sys2Proof/Machine/Ops.lean ====
section
/-! DEFINITION. The shared operations: units of the state, time, worlds, DENIED, events, MSI-X, responses. -/

namespace Sys2Proof.Machine

/-- What a command answers. -/
abbrev Res := Host.Outcome State Fault Refusal

/-! ## Units of the state -/

def State.mb (s : State) (h : Nat) : Mbox := s.wrd.mb.get {} h
def State.setMb (s : State) (h : Nat) (m : Mbox) : State := { s with wrd.mb := s.wrd.mb.set {} h m }
def State.updMb (s : State) (h : Nat) (f : Mbox → Mbox) : State := s.setMb h (f (s.mb h))

def State.mea (s : State) (m : Nat) : Meadow := s.fab.get {} m
def State.setMea (s : State) (m : Nat) (x : Meadow) : State := { s with fab := s.fab.set {} m x }
def State.updMea (s : State) (m : Nat) (f : Meadow → Meadow) : State := s.setMea m (f (s.mea m))

def State.cue (s : State) (k : Nat) : Cue := s.tl.cues.get {} k
def State.setCue (s : State) (k : Nat) (c : Cue) : State := { s with tl.cues := s.tl.cues.set {} k c }

def State.queue (s : State) (q : Nat) : Queue := s.que.q.get {} q
def State.setQueue (s : State) (q : Nat) (x : Queue) : State := { s with que.q := s.que.q.set {} q x }
def State.updQueue (s : State) (q : Nat) (f : Queue → Queue) : State := s.setQueue q (f (s.queue q))

def State.eng (s : State) (e : Nat) : Engine := s.stp.eng.get {} e
def State.setEng (s : State) (e : Nat) (x : Engine) : State := { s with stp.eng := s.stp.eng.set {} e x }
def State.updEng (s : State) (e : Nat) (f : Engine → Engine) : State := s.setEng e (f (s.eng e))

def State.row (s : State) (r : Nat) : Row := s.stp.row.get {} r
def State.setRow (s : State) (r : Nat) (x : Row) : State := { s with stp.row := s.stp.row.set {} r x }
def State.updRow (s : State) (r : Nat) (f : Row → Row) : State := s.setRow r (f (s.row r))

def State.ent (s : State) (n : Nat) : Entry := s.stp.ent.get {} n
def State.setEnt (s : State) (n : Nat) (x : Entry) : State := { s with stp.ent := s.stp.ent.set {} n x }
def State.updEnt (s : State) (n : Nat) (f : Entry → Entry) : State := s.setEnt n (f (s.ent n))

def State.sch (s : State) (h : Nat) : Sched := s.stp.sch.get {} h
def State.setSch (s : State) (h : Nat) (x : Sched) : State := { s with stp.sch := s.stp.sch.set {} h x }
def State.updSch (s : State) (h : Nat) (f : Sched → Sched) : State := s.setSch h (f (s.sch h))

def State.buf (s : State) (h : Nat) : Option Buf := s.pool.buf.get none h
def State.setBuf (s : State) (h : Nat) (b : Option Buf) : State := { s with pool.buf := s.pool.buf.set none h b }

def State.pch (s : State) (p : Nat) : Pch := s.hbm.pch.get {} p
def State.setPch (s : State) (p : Nat) (x : Pch) : State := { s with hbm.pch := s.hbm.pch.set {} p x }
def State.updPch (s : State) (p : Nat) (f : Pch → Pch) : State := s.setPch p (f (s.pch p))

def State.region (s : State) (r : Nat) : Region := s.scrim.region.get {} r
def State.setRegion (s : State) (r : Nat) (x : Region) : State := { s with scrim.region := s.scrim.region.set {} r x }
def State.updRegion (s : State) (r : Nat) (f : Region → Region) : State := s.setRegion r (f (s.region r))

def State.ctx (s : State) (c : Nat) : Ctx := s.net.ctx.get {} c
def State.setCtx (s : State) (c : Nat) (x : Ctx) : State := { s with net.ctx := s.net.ctx.set {} c x }
def State.updCtx (s : State) (c : Nat) (f : Ctx → Ctx) : State := s.setCtx c (f (s.ctx c))

def State.port (s : State) (p : Nat) : EthPort := s.net.port.get {} p
def State.setPort (s : State) (p : Nat) (x : EthPort) : State := { s with net.port := s.net.port.set {} p x }
def State.updPort (s : State) (p : Nat) (f : EthPort → EthPort) : State := s.setPort p (f (s.port p))

def State.lane (s : State) (l : Nat) : Lane := s.net.lane.get {} l
def State.setLane (s : State) (l : Nat) (x : Lane) : State := { s with net.lane := s.net.lane.set {} l x }
def State.updLane (s : State) (l : Nat) (f : Lane → Lane) : State := s.setLane l (f (s.lane l))

def State.sdi (s : State) (j : Nat) : SdiPort := s.net.sdi.get {} j
def State.setSdi (s : State) (j : Nat) (x : SdiPort) : State := { s with net.sdi := s.net.sdi.set {} j x }
def State.updSdi (s : State) (j : Nat) (f : SdiPort → SdiPort) : State := s.setSdi j (f (s.sdi j))

def State.link (s : State) (n : Nat) : PcieLink := s.pcie.get {} n
def State.setLink (s : State) (n : Nat) (x : PcieLink) : State := { s with pcie := s.pcie.set {} n x }

def State.scrub (s : State) (h : Nat) : Scrubber := s.scr.get {} h
def State.setScrub (s : State) (h : Nat) (x : Scrubber) : State := { s with scr := s.scr.set {} h x }

def State.floop (s : State) (l : Nat) : FLoop := s.clk.loop.get {} l
def State.setFloop (s : State) (l : Nat) (x : FLoop) : State := { s with clk.loop := s.clk.loop.set {} l x }

def State.gclk (s : State) (g : Nat) : GClk := s.clk.gclk.get {} g
def State.setGclk (s : State) (g : Nat) (x : GClk) : State := { s with clk.gclk := s.clk.gclk.set {} g x }

def State.pin (s : State) (p : Nat) : Pin := s.io.pin.get {} p
def State.setPin (s : State) (p : Nat) (x : Pin) : State := { s with io.pin := s.io.pin.set {} p x }

def State.bank (s : State) (b : Nat) : Bank := s.io.bank.get {} b
def State.setBank (s : State) (b : Nat) (x : Bank) : State := { s with io.bank := s.io.bank.set {} b x }

def State.serial (s : State) (k : Nat) : Serial := s.io.ser.get {} k
def State.setSerial (s : State) (k : Nat) (x : Serial) : State := { s with io.ser := s.io.ser.set {} k x }

def State.ptp (s : State) (b : Nat) : PtpPort := s.tl.ports.get {} b
def State.setPtp (s : State) (b : Nat) (x : PtpPort) : State := { s with tl.ports := s.tl.ports.set {} b x }

/-- Send something out of the block. -/
def State.emit (s : State) (o : Out) : State := { s with out := s.out ++ [o] }

/-- The next free value (log 10), and the state that has drawn it. -/
def State.draw (s : State) : BitVec 64 × State := (Config.freeValue s.free, { s with free := s.free + 1 })

/-! ## Modes, time (R23, R25, spec/02) -/

/-- One second and one nanosecond in the timeline's units of 2^-32 ns. -/
def secU : Nat := 1000000000 * 2 ^ 32
def nsU : Nat := 2 ^ 32
/-- The count of seconds has 48 bits. -/
def wrapT (t : Nat) : Nat := t % (2 ^ 48 * secU)

/-- The timeline value of heath `h`: the master's and the replica's disagreement (R25). -/
def State.heathNow (s : State) (h : Nat) : Nat := wrapT ((s.tl.now : Int) + s.tl.skew.get 0 h).toNat

/-- A time in the TIME format of R336: [93:46] seconds, [45:16] nanoseconds, [15:0] 2^-16 ns. -/
def timeField (t : Nat) : BitVec 96 :=
  BitVec.ofNat 96 (pack [(t / secU % 2 ^ 48, 46), (t % secU / nsU, 16), (t % nsU / 2 ^ 16, 0)])

/-- MODE of ID_DEVICE (R325, spec/15). -/
def Mode.code : Mode → Nat
  | .boot => 0 | .load => 1 | .run => 2 | .hold => 3 | .service => 4 | .lockdown => 5

/-- LIFECYCLE of ID_DEVICE (R325, spec/15). -/
def Life.code : Life → Nat
  | .blank => 0 | .opened => 1 | .sealed => 2 | .returned => 3 | .scrapped => 4

/-- RUN or SERVICE: the modes in which the fabric runs (R427, spec/20). -/
def State.running (s : State) : Bool := s.pwr.mode = .run || s.pwr.mode = .service

/-- The hard units run: in LOAD as well (R371, spec/17). -/
def State.netUp (s : State) : Bool := s.pwr.mode = .load || s.running

/-- The always-on domain works: not in LOCKDOWN, whose step 5 stops it (R450, spec/21), nor while one of its rails is down, which
holds it in reset (R420, spec/20). -/
def State.alive (s : State) : Bool := s.pwr.mode ≠ .lockdown && !(s.pwr.down.contains .aon || s.pwr.down.contains .aux)

/-! ## Hosts and worlds (R15, R436, R438) -/

/-- The hosts whose links exist: hosts 1 and 3 only with a bifurcated port (R15, R320). -/
def State.hosts (s : State) : List Nat :=
  [0] ++ (if s.pwr.straps.bifA then [1] else []) ++ [2] ++ (if s.pwr.straps.bifB then [3] else []) ++ [4]

/-- The world of a host: the owner is always secure (R438). -/
def State.hostWorld (s : State) (h : Nat) : Bool := h = s.pwr.owner || (s.mb h).world

/-- A requester of world `w` reaches a resource of world `r` (R436). -/
def reaches (w r : Bool) : Bool := w || !r

/-! ## MSI-X and events (R327, R347) -/

/-- Send a vector to a PCIe host. Host 4 has SMBALERT_N instead, which the state shows (`State.smbAlert`). -/
def State.msi (s : State) (h v : Nat) : State := if h < 4 then s.emit (.msix h v) else s

/-- Slots of the event ring in use. -/
def Mbox.evUsed (m : Mbox) : Nat := (m.evW - m.evR).toNat

/-- Write an event into host `h`'s ring; there is room for it. -/
def State.putEvent (s : State) (h : Nat) (e : Ev) : State :=
  let m := s.mb h
  let s := s.setMb h { m with
    ev := m.ev.set {} (m.evW.toNat % 256) { e with eseq := m.evW }, evW := m.evW + 1 }
  if m.evW = m.evR ∧ ¬ m.irqMask.getLsbD 1 then s.msi h 1 else s

/-- Host `h` has masked the group of an event code (EVENT_MASK_SET). -/
def Mbox.masks (m : Mbox) (code : BitVec 16) : Bool := m.evMask.getLsbD (code.toNat / 256)

/-- An event for host `h`: written, dropped and counted while the ring is full, or neither when its group is masked. -/
def State.postEvent (s : State) (h : Nat) (code : BitVec 16) (detail : BitVec 96) (t : Nat) : State :=
  let m := s.mb h
  if m.masks code then s
  else if m.evUsed < 256 ∧ (m.dropped = none ∨ m.masks 0x0102) then
    s.putEvent h { code := code, sev := BitVec.ofNat 8 (Config.eventSeverity code).val, time := timeField t, detail := detail }
  else
    s.setMb h { m with dropped := some (match m.dropped with | none => (1, t) | some (n, t0) => (min (n + 1) (2 ^ 32 - 1), t0)) }

/-- EVENTS_LOST in the first freed slot (R347). -/
def State.flushLost (s : State) (h : Nat) : State :=
  let m := s.mb h
  match m.dropped with
  | some (n, t) =>
    if m.evUsed < 256 ∧ ¬ m.masks 0x0102 then
      (s.setMb h { m with dropped := none }).putEvent h
        { code := 0x0102, sev := BitVec.ofNat 8 (Config.eventSeverity 0x0102).val, time := timeField t,
          detail := Config.eventDetail 0x0102 [n] }
    else s
  | none => s

/-- DETAIL of MODE_CHANGED: old mode, new mode, reset cause (R423). -/
def modeDetail (old new cause : Nat) : BitVec 96 := BitVec.ofNat 96 (pack [(cause, 16), (new, 8), (old, 0)])

/-- The reset's MODE_CHANGED, the first event the warden writes to each host after a reset, and LIFECYCLE_CHANGED next when a
transition has been programmed (R423, R446). -/
def State.flushBoot (s : State) : State :=
  match s.wrd.boot with
  | none => s
  | some old =>
    let all := fun code detail (s : State) => each s.hosts (fun h s => s.postEvent h code detail s.tl.now) s
    let s := all 0x0101 (modeDetail old 0 s.pwr.cause.toNat) { s with wrd.boot := none }
    match s.sec.fused with
    | some new => all 0x0B02 (Config.eventDetail 0x0B02 [s.sec.life.code, new.code]) s
    | none => s

/-- An event to several hosts, each once, with the timeline time `t` of the happening. -/
def State.eventAt (s : State) (to_ : List Nat) (code : BitVec 16) (detail : BitVec 96) (t : Nat) : State :=
  each to_.dedup (fun h s => s.postEvent h code detail t) s.flushBoot

/-- An event whose DETAIL layout the spec leaves open, reported now. -/
def State.event (s : State) (to_ : List Nat) (code : BitVec 16) (vals : List Nat) : State :=
  s.eventAt to_ code (Config.eventDetail code vals) s.tl.now

/-- An event to the owner host. -/
def State.ownerEvent (s : State) (code : BitVec 16) (vals : List Nat) : State := s.event [s.pwr.owner] code vals

/-- An event to every host. -/
def State.allEvent (s : State) (code : BitVec 16) (vals : List Nat) : State := s.event s.hosts code vals

/-- A change of mode, with MODE_CHANGED to every host (R427). -/
def State.setMode (s : State) (m : Mode) : State :=
  ({ s with pwr.mode := m }).eventAt s.hosts 0x0101 (modeDetail s.pwr.mode.code m.code 0) s.tl.now

/-! ## Refused accesses (R441, R442) -/

/-- Detail of a DENIED event. -/
def deniedDetail (count kind index res resIdx : Nat) : BitVec 96 :=
  BitVec.ofNat 96 (pack [(min count (2 ^ 32 - 1), 64), (kind % 16, 60), (index % 2 ^ 28, 32), (res % 16, 28), (resIdx % 2 ^ 28, 0)])

/-- A refusal: an event at once and a window of 1 ms, or a count in the open window of the pair (R442). -/
def State.deny (s : State) (kind index res resIdx : Nat) : State :=
  match s.wrd.windows.find? fun w => w.1 = kind && w.2.1 = index && w.2.2.1 = res with
  | some _ =>
    { s with wrd.windows := s.wrd.windows.map fun w =>
        if w.1 = kind && w.2.1 = index && w.2.2.1 = res then (kind, index, res, w.2.2.2.1 + 1, resIdx) else w }
  | none =>
    let s := s.eventAt [s.pwr.owner] 0x0201 (deniedDetail 1 kind index res resIdx) s.tl.now
    { s with wrd.windows := s.wrd.windows ++ [(kind, index, res, 0, resIdx)] }

/-- A refused BAR0 access of a host also counts in DENIED_ACCESSES (R441). -/
def State.denyBar0 (s : State) (h res resIdx : Nat) : State :=
  (s.updMb h fun m => { m with denied := satInc m.denied }).deny 0 h res resIdx

/-- GATED_ACCESSES of a host (R325, R331). -/
def State.gatedAcc (s : State) (h : Nat) : State := s.updMb h fun m => { m with gatedAcc := satInc m.gatedAcc }

/-! ## Responses (R340-R342) -/

/-- Slots of the response ring in use. -/
def Mbox.rspUsed (m : Mbox) : Nat := (m.rspW - m.rspR).toNat

/-- Write a response; there is room for it. -/
def State.putRsp (s : State) (h : Nat) (r : Rsp) : State :=
  let m := s.mb h
  let s := s.setMb h { m with
    rsp := m.rsp.set {} (m.rspW.toNat % 64) { r with rseq := m.rspW, first := true }
    rspW := m.rspW + 1, done := if r.first then r.seq else m.done }
  if m.rspW = m.rspR ∧ ¬ m.irqMask.getLsbD 0 then s.msi h 0 else s

/-- A response falls due: written, or waiting for room behind those that wait (R342). -/
def State.respond (s : State) (h : Nat) (r : Rsp) : State :=
  let m := s.mb h
  if m.waiting = [] ∧ m.rspUsed < 64 then s.putRsp h r else s.setMb h { m with waiting := m.waiting ++ [r] }

/-- Write the responses that wait, as far as there is room. -/
def State.flushRsp (s : State) (h : Nat) : List Rsp → State
  | [] => s
  | r :: rest =>
    let m := s.mb h
    if m.rspUsed < 64 then ((s.setMb h { m with waiting := rest }).putRsp h r).flushRsp h rest else s

/-! ## What a command's meaning answers -/

/-- Status codes of R344. -/
def stOk : BitVec 8 := 0x00
def stIgnored : BitVec 8 := 0x01
def stBusy : BitVec 8 := 0x02
def stDenied : BitVec 8 := 0x03
def stBadArg : BitVec 8 := 0x04
def stLate : BitVec 8 := 0x05
def stNoResource : BitVec 8 := 0x06
def stFailed : BitVec 8 := 0x07
def stNotReady : BitVec 8 := 0x08
def stAborted : BitVec 8 := 0x09
def stQueued : BitVec 8 := 0x0A

/-- A command's effect and first response. -/
structure Ans where
  s : State
  status : BitVec 8 := stOk
  cause : BitVec 16 := 0
  res : List Nat := []
  /-- the command goes on and its first response comes later -/
  wait : Bool := false
  /-- the final response that follows a QUEUED one at once: status and CAUSE -/
  fin : Option (BitVec 8 × BitVec 16) := none

/-- Argument word `i` of a command. -/
def Cmd.arg (c : Cmd) (i : Nat) : Nat := (c.args.getD i 0).toNat

/-- Bits [lo+len-1:lo] of argument word `i`. -/
def Cmd.f (c : Cmd) (i lo len : Nat) : Nat := fld (c.arg i) lo len

/-- Byte offset in the slot of a field at bit `lo` of argument word `i` (CAUSE of R345). -/
def argOff (i lo : Nat) : BitVec 16 := BitVec.ofNat 16 (8 + 8 * i + lo / 8)

def Ans.bad (s : State) (i lo : Nat) : Ans := { s := s, status := stBadArg, cause := argOff i lo }
/-- BAD_ARG for a parameter block, whose field lies at byte `off` (R345). -/
def Ans.badBlock (s : State) (off : Nat) : Ans := { s := s, status := stBadArg, cause := BitVec.ofNat 16 (2 ^ 15 + off) }
def Ans.busy (s : State) : Ans := { s := s, status := stBusy }
def Ans.ignored (s : State) (res : List Nat := []) : Ans := { s := s, status := stIgnored, res := res }
def Ans.noRes (s : State) : Ans := { s := s, status := stNoResource }
def Ans.notReady (s : State) : Ans := { s := s, status := stNotReady }
def Ans.late (s : State) : Ans := { s := s, status := stLate }
def Ans.queued (s : State) : Ans := { s := s, status := stQueued }
/-- DENIED, with its event to the owner: RES_KIND 10, the command (R441, R442). -/
def Ans.denied (s : State) (h : Nat) (c : Cmd) : Ans := { s := s.deny 0 h 10 c.code.toNat, status := stDenied }

/-- The record that a QUEUED command leaves until its final response. -/
def Cmd.bg (c : Cmd) (h : Nat) : Bg := { host := h, seq := c.seq, code := c.code, tag := c.tag }

/-- The final response of a QUEUED command. -/
def State.finish (s : State) (b : Bg) (status : BitVec 8) (cause : BitVec 16 := 0) (res : List Nat := []) : State :=
  if b ∈ s.wrd.bg then
    ({ s with wrd.bg := s.wrd.bg.erase b }).respond b.host {
      seq := b.seq, code := b.code, tag := b.tag, status := status, isFinal := true, cause := cause, res := res.map (BitVec.ofNat 64), first := false }
  else s

/-- The first response of command `c` of host `h`: the command no longer runs in the foreground. -/
def State.reply (h : Nat) (c : Cmd) (a : Ans) : State :=
  if a.wait then a.s else
  let s := a.s.updMb h fun m => { m with running := none }
  let s := if a.status = stQueued then { s with wrd.bg := s.wrd.bg ++ [c.bg h] } else s
  let s := if (s.mb h).waiting = [] ∧ (s.mb h).rspUsed < 64 then s else s.updMb h fun m => { m with owed := some c }
  let s := s.respond h {
    seq := c.seq, code := c.code, tag := c.tag, status := a.status, isFinal := a.status ≠ stQueued, cause := a.cause,
    res := a.res.map (BitVec.ofNat 64), first := true }
  match a.fin with
  | some (st, cause) => s.finish (c.bg h) st cause
  | none => s

/-- The first response of a command that host `h` started and that was left waiting, named by its SEQ. -/
def State.replyTo (s : State) (h : Nat) (seq : BitVec 32) (f : State → Ans) : State :=
  match (s.mb h).running with
  | some c => if c.seq = seq then State.reply h c (f s) else s
  | none => s

/-- The row of a mailbox command: its effect and first response, when the warden has started for host `h` a command of
this code that `sel` picks; nothing otherwise (log 11). -/
def runCmd (h : HostId) (code : BitVec 16) (sel : Cmd → Bool) (f : State → Nat → Cmd → Ans) (s : State) : Res :=
  match (s.mb h).running with
  | some c => if c.code = code ∧ sel c = true then .next (State.reply h c (f s h c)) else .next s
  | none => .next s

/-- Every command of the code. -/
def anyCmd : Cmd → Bool := fun _ => true

end Sys2Proof.Machine
end

