-- ==== Sys2Proof/Machine/Operands.lean ====
section
/-! DEFINITION. The argument words of the mailbox commands: their fields and ranges (check 1 of R345), their marks in the
command tables of R353, the modes that serve them (R346) and the resources they name (R350). -/

namespace Sys2Proof.Machine

/-! ## Clock sources (R398, R399, spec/19) -/

/-- Codes of R398 in use. -/
def srcUsed (c : Nat) : Bool :=
  c ≤ 0x09 || (0x10 ≤ c && c ≤ 0x1B) || c = 0x20 || c = 0x21 || (0x40 ≤ c && c ≤ 0x5F) || (0x80 ≤ c && c ≤ 0xFF)

/-- The heath of a source that belongs to one; none for a source of every heath. -/
def srcHeath (c : Nat) : Option Nat :=
  if 0x10 ≤ c ∧ c ≤ 0x1B then some ((c - 0x10) / 3)
  else if c = 0x20 ∨ c = 0x21 then some 0
  else if 0x40 ≤ c ∧ c ≤ 0x5F then some ((c - 0x40) / 8)
  else if 0x80 ≤ c then some ((c - 0x80) / 32)
  else none

/-- A source that a global clock of heath `h` can take. -/
def gclkSrc (h c : Nat) : Bool :=
  c = 0 || c = 0x09 ||
    (((c = 0x20 || c = 0x21 || (0x40 ≤ c && c ≤ 0x5F) || 0x80 ≤ c) && c ≤ 0xFF) && srcHeath c = some h)

/-- A reference that a fabric loop of heath `h` can take. -/
def loopSrc (h c : Nat) : Bool :=
  c = 3 || c = 4 || c = 0x09 || c = 0x20 ||
    (((0x10 ≤ c && c ≤ 0x1B) || (0x40 ≤ c && c ≤ 0x5F)) && srcHeath c = some h)

/-- Frequencies of R399. -/
def fselHz (f : Nat) : Nat :=
  [10000000, 25000000, 27000000, 48000000, 50000000, 80000000, 100000000, 156250000].getD f 0

/-- Frequency of a loop reference: a crystal input's FSEL, the housekeeping tap, the heritage oscillator, or the board's. -/
def State.refHz (s : State) (c : Nat) : Nat :=
  if c = 3 then fselHz s.pwr.straps.xaSel.toNat
  else if c = 4 then fselHz s.pwr.straps.xbSel.toNat
  else if c = 0x09 then 100000000
  else if c = 0x20 then 50000000
  else Config.sourceHz c

/-- Divider of output `k` of a fabric loop; 0 turns it off (R406). -/
def FLoop.div (x : FLoop) (k : Nat) : Nat := fld x.a1.toNat (48 + 8 * k) 8

/-- The ready flag of a source (R400): root taps follow the root loop, fabric-loop outputs their loop. -/
def State.srcReady (s : State) (c : Nat) : Bool :=
  if 5 ≤ c ∧ c ≤ 9 then s.clk.locked || s.clk.coast
  else if 0x80 ≤ c then
    let x := s.floop ((c - 0x80) / 2)
    (x.locked || x.refLost) && x.div (c % 2) ≠ 0
  else s.clk.ready.get false c

/-! ## Clock networks of a meadow (R79, R80, spec/04) -/

/-- The global clock that a clock network of a meadow carries: RCLK0-3 are networks 1-4, MG0-MG7 are 5-12 (R79). -/
def State.netClock (s : State) (m : Nat) (net : BitVec 4) : Nat :=
  let p := (s.mea m).live.pers
  let sel := if net.toNat ≤ 4 then p.rclkSel.get 0 (net.toNat - 1) else p.mgSel.get 0 (net.toNat - 5)
  16 * (m / 48) + sel.toNat

/-- A global clock is not STOPPED, and a fabric loop that it takes is locked or holds (R408, R409, R417). -/
def State.gclkRuns (s : State) (g : Nat) : Bool :=
  !(s.gclk g).stopped && (decide ((s.gclk g).src.toNat < 0x80) || s.srcReady (s.gclk g).src.toNat)

/-- A clock network of a meadow passes edges: the clocks are released, the hold is off, its global clock runs, and a regional
clock is not GATED (R65, R414, R417). -/
def State.netRuns (s : State) (m : Nat) (net : BitVec 4) : Bool :=
  s.running && s.pwr.fabClk && !s.pwr.ghold && net ≠ 0 && net.toNat ≤ 12 && s.gclkRuns (s.netClock m net) &&
    !(net.toNat ≤ 4 && (s.mea m).rclk.get .opened (net.toNat - 1) = .gated)

/-! ## Fields of the argument words -/

/-- A field: low bit, length, and whether its value lies in its range. Bits of no field are reserved. -/
abbrev Fd := Nat × Nat × Bool

/-- A handle and an offset that is a multiple of `m` (R354). -/
def hoff (a m : Nat) : List Fd := [(0, 20, true), (20, 36, fld a 20 36 % m = 0)]

/-- The first fault of a word whose fields are given by rising bit: a field out of range or a reserved bit set. -/
def wordFault (v pos : Nat) : List Fd → Option Nat
  | [] => if fld v pos (64 - pos) = 0 then none else some pos
  | (lo, len, ok) :: r =>
    if fld v pos (lo - pos) ≠ 0 then some pos
    else if ok then wordFault v (lo + len) r else some lo

/-- The first faulty field of the argument words. -/
def argsFault (c : Cmd) (fs : List (List Fd)) (i : Nat) : Nat → Option (BitVec 16)
  | 0 => none
  | n + 1 =>
    match wordFault (c.arg i) 0 (fs.getD i []) with
    | some lo => some (argOff i lo)
    | none => argsFault c fs (i + 1) n

/-- A number in a range. -/
def rng (v lo hi : Nat) : Bool := lo ≤ v && v ≤ hi

/-- The fields of GRID_DEFINE (R36). -/
def gridFields (c : Cmd) : List (List Fd) :=
  let lines := c.f 0 16 14
  let num := c.f 1 0 20
  let den := c.f 1 32 20
  let ratio := decide (den ≤ num ∧ num ≤ 300 * den)
  let phase := sgn 64 (c.arg 3)
  [[(0, 4, true), (16, 14, 1 ≤ lines), (32, 14, rng (c.f 0 32 14) 1 lines), (48, 14, c.f 0 48 14 ≤ lines)],
   [(0, 20, 1 ≤ num && ratio), (32, 20, 1 ≤ den)],
   [(0, 32, decide (c.f 2 0 32 * num * lines ≤ den * 1000000000))],
   [(0, 64, decide (-1000000000 ≤ phase ∧ phase ≤ 1000000000))]]

/-- TARGET and ARG of a cue lie in the sets that R42 gives the action; none for a code that R42 does not give. -/
def cueSets (action target arg : Nat) : Option (Bool × Bool) :=
  match action with
  | 0x0101 => some (target = 0, true)
  | 0x0201 => some (target < 4096, arg < 2 ^ 20)
  | 0x0202 | 0x0203 => some (target < 4096, arg = 0)
  | 0x0301 => some (target < 192, arg = 0)
  | 0x0302 => some (target < 192, arg < 2 ^ 16)
  | 0x0401 => some (target < 12288, arg < 8)
  | 0x0501 => some (target < 8192, arg < 2 ^ 32 && fld arg 2 14 = 0)
  | 0x0601 => some (target ≤ 4, true)
  | _ => none

/-- The fields of a cue entry (R38): MODE selects the layout of bits [119:0]. A repeated grid cue needs FRAME_STEP 1 or
more. DEDUCED: with REPEAT 0 the step is not used and may be 0. DESIGN CHOICE (log 21): in absolute mode REPEAT and FRAME_STEP,
which are fields of grid mode only, may hold anything and are ignored. -/
def cueFields (c : Cmd) : List (List Fd) :=
  let grid := c.f 3 61 1 = 1
  let repeats := c.f 2 8 16
  let step := c.f 2 0 8 * 256 + c.f 1 56 8
  let sets := cueSets (c.f 3 40 16) (c.f 3 24 16) (c.f 3 0 24 * 2 ^ 40 + c.f 2 24 40)
  let ok := sets.getD (true, true)
  [if grid then [(58, 6, true)] else [(26, 16, true), (42, 22, true)],
   if grid then [(0, 8, true), (8, 44, true), (52, 4, true), (56, 8, repeats = 0 || step ≠ 0)]
   else [(0, 8, c.f 1 0 8 * 2 ^ 22 + c.f 0 42 22 ≤ 999999999), (8, 48, true), (56, 8, true)],
   [(0, 24, true), (24, 40, ok.2)], [(0, 24, true), (24, 16, ok.1), (40, 16, sets.isSome), (61, 2, true)]]

/-- WIDTH, HEIGHT, SCAN, SAMPLING and DEPTH of a format word (block word 0x38). -/
def fmtOf (w : Nat) : Nat × Nat × Nat × Nat × Nat := (fld w 50 14, fld w 37 13, fld w 35 2, fld w 32 3, fld w 28 4)

/-- A DEPTH that an SDI context may have: 10, or 12 in the 12-bit formats of R312. -/
def sdiDepth (w : Nat) : Bool :=
  let (wd, ht, scan, _, d) := fmtOf w
  d = 10 || (d = 12 && wd = 1920 && ht = 1080 && (scan = 0 || scan = 2))

/-- Total lines of a format. PRESUMED from the SMPTE standards that R312 names (log 23). -/
def sdiLines (w : Nat) : Nat :=
  match (fmtOf w).2.1 with | 486 => 525 | 576 => 625 | 720 => 750 | 2160 => 2250 | _ => 1125

/-- The fields of SDI_PORT_SET. An input may name no format, in which case the word is zero: DESIGN CHOICE (log 20). -/
def sdiFields (c : Cmd) : List (List Fd) :=
  let w := c.arg 1
  let (wd, ht, scan, smp, _) := fmtOf w
  let none_ := c.f 0 5 1 = 0 && w = 0
  [[(0, 5, true), (5, 1, true), (6, 1, true), (8, 3, c.f 0 8 3 ≤ 6)],
   [(27, 1, true), (28, 4, none_ || sdiDepth w), (32, 3, smp ≤ 2), (35, 2, scan ≤ 2), (37, 13, none_ || rng ht 1 4320),
    (50, 14, none_ || rng wd 16 8192)],
   [(0, 4, true), (32, 32, true)]]

/-- Kinds and indexes of producer source codes (R353). -/
def srcOk (v : Nat) : Bool :=
  let k := fld v 28 4
  let i := fld v 0 28
  (k = 1 && i < 4) || (k = 2 && i < 4) || (k = 3 && i < 192) || (k = 4 && i = 0) || (k = 5 && i < 1024) || (k = 6 && i < 98304)

/-- The fields of a slot word of QUEUE_SETUP: a slot without a source has no credits. -/
def slotFields (c : Cmd) (i : Nat) : List Fd :=
  [(0, 13, true), (32, 32, if c.f i 32 32 = 0 then c.f i 0 13 = 0 else srcOk (c.f i 32 32))]

/-- The fields of LOOP_CONFIGURE (R406, R407): the reference allowed, ready and in range, the oscillator in 3.2-6.4 GHz,
the outputs at most 900 MHz. A multiplier or divider out of the reach of the loop is charged to its own field. -/
def loopFields (s : State) (c : Cmd) : List (List Fd) :=
  let l := c.f 0 0 6
  let ref := c.f 1 0 8
  let r := c.f 1 8 5 + 1
  let n := c.f 1 16 8
  let m := n * 2 ^ 24 + c.f 1 24 24
  let o0 := c.f 1 48 8
  let o1 := c.f 1 56 8
  let f := s.refHz ref
  -- oscillator frequency times R * 2^24
  let osc := f * m
  let u := r * 2 ^ 24
  let oscOk := decide (3200000000 * u ≤ osc ∧ osc ≤ 6400000000 * u)
  let coastOk := decide (ref ≠ 9 ∨ 6 * m ≤ 5 * 255 * 2 ^ 24)
  let outOk := fun o : Nat => decide (o = 0 ∨ (2 ≤ o ∧ o ≤ 127 ∧ osc ≤ 900000000 * u * o))
  let depth := c.f 2 0 8
  let rate := c.f 2 8 8
  let steer := c.f 2 16 1
  [[(0, 6, true)],
   [(0, 8, loopSrc (l / 16) ref && s.srcReady ref), (8, 5, decide (10000000 * r ≤ f ∧ f ≤ 200000000 * r)),
    (16, 8, 16 ≤ n && oscOk && coastOk), (24, 24, true), (48, 8, outOk o0), (56, 8, outOk o1)],
   [(0, 8, depth ≤ 200), (8, 8, depth = 0 || rng rate 30 60), (16, 1, steer = 0 || (ref = 9 && depth = 0))]]

/-- Gate codes of R413. -/
def gateCode (g : Nat) : Bool := g ≤ 0x2FF || rng g 0x1000 0x101F || g = 0x1040 || g = 0x1041

/-- The kinds of WORLD_SET: how many targets each has. -/
def worldCount (kind : Nat) : Nat := [192, 4096, 12288, 32, 192, 5].getD kind 0

/-- Self-test patterns of R304. -/
def patternCode (p : Nat) : Bool := p ≤ 4 || rng p 8 10

/-- The fields of each command's argument words, with the ranges the manual gives; none for an unknown CODE. -/
def argFields (s : State) (c : Cmd) : Option (List (List Fd)) :=
  match c.code.toNat with
  | 0x0101 | 0x0102 | 0x0B01 | 0x0B04 => some []
  | 0x0103 => some [[(0, 32, c.f 0 0 32 = 0xD0D0)]]
  | 0x0104 => some [[(1, 11, true)]]
  | 0x0201 => some [[(0, 4, c.f 0 0 4 ≤ 5), (4, 1, true)], [(0, 64, c.arg 1 < worldCount (c.f 0 0 4))]]
  | 0x0202 => some [[(0, 4, c.f 0 0 4 ≤ 5)], [(0, 64, c.arg 1 < worldCount (c.f 0 0 4))]]
  | 0x0301 =>
    if c.f 0 0 1 = 1 then some [[(0, 1, true)], hoff (c.arg 1) 1, [(0, 64, true)]] else some [[(0, 1, true)]]
  | 0x0302 => some [[], hoff (c.arg 1) 1, [(0, 64, true)]]
  | 0x0303 | 0x0304 => some [[(0, 8, c.f 0 0 8 < 192)]]
  | 0x0305 =>
    some [[(0, 8, c.f 0 0 8 < 192)],
      [(0, 12, c.f 1 0 12 ≤ 3071), (16, 12, rng (c.f 1 16 12) 1 (3072 - c.f 1 0 12))], hoff (c.arg 2) 1]
  | 0x0401 => some [[(0, 2, true), (4, 2, true), (6, 2, true), (8, 1, true), (9, 1, true), (16, 7, true)]]
  | 0x0402 => some [[(0, 48, true)], [(0, 30, c.f 1 0 30 ≤ 999999999)]]
  | 0x0403 => some [[(0, 64, true)]]
  | 0x0404 =>
    let a := sgn 32 (c.f 0 0 32)
    some [[(0, 32, s.clk.fast || decide (-32768000 ≤ a ∧ a ≤ 32768000))]]
  | 0x0405 => some (gridFields c)
  | 0x0406 => some (cueFields c)
  | 0x0407 | 0x0408 => some [[(0, 14, true), (24, 8, true)]]
  | 0x0501 => some [[(0, 2, true)], hoff (c.arg 1) 8]
  | 0x0502 | 0x0503 | 0x0504 | 0x0505 | 0x0507 => some [[(0, 12, true)]]
  | 0x0506 => some [[(0, 12, true)], [(0, 20, true)]]
  | 0x0508 => some [[(0, 2, true), (4, 2, true)], [(0, 48, true)]]
  | 0x0509 => some [[(0, 2, true), (4, 3, true), (8, 1, true)]]
  | 0x050A => some (sdiFields c)
  | 0x050B =>
    some [[(0, 7, c.f 0 0 7 < 96), (7, 1, true)], [(0, 7, true), (8, 7, true), (16, 7, true), (24, 7, true), (32, 7, true)]]
  | 0x0601 =>
    some [[(0, 8, true), (8, 3, true), (12, 2, true), (16, 1, true), (20, 2, c.f 0 20 2 ≤ 2)],
      [(0, 19, rng (c.f 1 0 19) 1 262144)]]
  | 0x0602 => some [[(0, 8, true)]]
  | 0x0603 | 0x0604 | 0x0605 => some [[(0, 20, true)]]
  | 0x0606 => some [[(0, 5, true), (8, 1, true)]]
  | 0x0607 => some [[(0, 10, true), (16, 10, rng (c.f 0 16 10) 1 (1024 - c.f 0 0 10))], hoff (c.arg 1) (2 ^ 26)]
  | 0x0608 => some [[(0, 10, true), (16, 10, rng (c.f 0 16 10) 1 (1024 - c.f 0 0 10))]]
  | 0x0609 => some [[(0, 10, true)]]
  | 0x060A =>
    let n := c.f 1 0 17
    some [[(0, 17, c.f 0 0 17 < 98304)],
      [(0, 17, if c.f 1 63 1 = 1 then n < 8192 else n < 98304), (17, 2, true), (63, 1, true)], slotFields c 2, slotFields c 3, slotFields c 4]
  | 0x060B => some [[(0, 17, c.f 0 0 17 < 98304)]]
  | 0x060C => some [[(0, 10, true), (32, 17, c.f 0 32 17 < 98304)], [(0, 2, true), (4, 1, true), (8, 1, true)]]
  | 0x0701 => some [[(0, 5, true)], [(0, 25, true)], [(0, 25, true)], [(0, 25, true)], [(0, 25, true)]]
  | 0x0702 => some [[(0, 5, true), (8, 3, true)], [(0, 16, true)]]
  | 0x0703 => some [[(0, 5, true)], [(0, 20, c.f 1 0 20 ≤ 1000000)]]
  | 0x0704 => some [[(0, 5, true), (8, 1, true)]]
  | 0x0705 => some [[(0, 8, true), (8, 1, true), (9, 1, true)]]
  | 0x0706 => some [[(0, 8, true)]]
  | 0x0707 => some [[(0, 1, true), (8, 8, rng (c.f 0 8 8) 1 25)]]
  | 0x0801 => some [[(0, 5, true)], hoff (c.arg 1) 1, [(0, 64, true)]]
  | 0x0802 => some [[(0, 5, true)], [(0, 20, 1 ≤ c.f 1 0 20), (24, 4, 1 ≤ c.f 1 24 4)]]
  | 0x0803 | 0x0A05 => some [[(0, 5, true)]]
  | 0x0804 => some [[(0, 9, true)]]
  | 0x0805 =>
    some [[(0, 13, true)],
      [(18, 6, c.f 1 18 6 ≤ 32), (24, 17, c.f 1 24 17 < 98304), (41, 6, c.f 1 41 6 ≤ 32), (47, 17, c.f 1 47 17 < 98304)],
      [(10, 16, true), (26, 2, true), (32, 4, c.f 2 32 4 ≠ 0), (36, 11, true), (47, 8, c.f 2 47 8 ≠ 0),
       (55, 2, c.f 2 55 2 ≠ 3), (57, 2, true), (59, 1, true), (60, 1, true)]]
  | 0x0806 | 0x0807 | 0x0808 => some [[(0, 13, true)]]
  | 0x0809 => some [[(0, 2, true)], [(0, 20, rng (c.f 1 0 20) 100 1000000)]]
  | 0x0901 => some [[(0, 3, rng (c.f 0 0 3) 2 3)], [(0, 48, true)], [(0, 30, c.f 2 0 30 ≤ 999999999)]]
  | 0x0902 => some [[(0, 8, c.f 0 0 8 < 192), (8, 2, c.f 0 8 2 ≤ 2)]]
  | 0x0903 =>
    let k := c.f 0 0 8
    let src := c.f 0 8 8
    some [[(0, 8, k = 0 || rng k 0x80 0xBF),
      (8, 8, if k = 0 then src = 1 || src = 3 || src = 4 else gclkSrc ((k - 0x80) / 16) src)]]
  | 0x0904 => some [[(0, 16, gateCode (c.f 0 0 16)), (16, 1, true)]]
  | 0x0905 => some (loopFields s c)
  | 0x0906 => some [[(0, 8, c.f 0 0 8 ≠ 0 && srcUsed (c.f 0 0 8))]]
  | 0x0A01 =>
    if c.f 0 15 1 = 1 then some [[(8, 2, true), (15, 1, true), (16, 1, true)]]
    else some [[(0, 8, c.f 0 0 8 < 192), (16, 1, true)]]
  | 0x0A02 => some [[(0, 2, true)]]
  | 0x0A03 => some [[(0, 7, c.f 0 0 7 < 96)]]
  | 0x0A04 =>
    some [[(0, 7, c.f 0 0 7 < 96), (8, 4, patternCode (c.f 0 8 4)), (12, 2, c.f 0 12 2 ≤ 2)],
      [(0, 16, rng (c.f 1 0 16) 1 60000)]]
  | 0x0A06 => some [[(0, 4, true), (8, 6, c.f 0 8 6 < 48)]]
  | 0x0B02 => some [hoff (c.arg 0) 8]
  | 0x0B03 => some [[(0, 4, c.f 0 0 4 ≤ 4)], hoff (c.arg 1) 8]
  | _ => none

/-! ## Marks of the command tables and modes -/

/-- Commands marked H4: host 4 may issue them (R353). -/
def h4Codes : List Nat :=
  [0x0101, 0x0102, 0x0103, 0x0104, 0x0202, 0x0304, 0x0507, 0x0901, 0x0902, 0x0906, 0x0A02, 0x0B01, 0x0B02, 0x0B04]

/-- Commands marked Owner (R353). -/
def ownerCodes : List Nat :=
  [0x0103, 0x0201, 0x0301, 0x0401, 0x0402, 0x0403, 0x0404, 0x0405, 0x0508, 0x0509, 0x050A, 0x050B, 0x0606, 0x0701,
   0x0702, 0x0703, 0x0704, 0x0705, 0x0706, 0x0707, 0x0809, 0x0901, 0x0903, 0x0904, 0x0905, 0x0A01, 0x0A03, 0x0A04,
   0x0A06, 0x0B01, 0x0B02, 0x0B03]

/-- Commands named ..._QUERY. -/
def queryCodes : List Nat :=
  [0x0101, 0x0202, 0x0304, 0x0408, 0x0507, 0x0605, 0x0609, 0x060B, 0x0808, 0x0A02, 0x0B04]

/-- Commands that LOAD does not serve. -/
def notInLoad : List Nat := [0x0302, 0x0303, 0x0305, 0x0901, 0x0A01, 0x0B02]

/-- The modes serve commands as R346 gives. During HOLD entry commands are served as for HOLD (R429). -/
def served (m : Mode) (c : Cmd) : Bool :=
  let k := c.code.toNat
  match m with
  | .boot => k / 256 = 1 || k = 0x0202 || k = 0x0B04 || k = 0x0906
  | .load => !notInLoad.contains k
  | .run | .service => true
  | .hold =>
    if k = 0x0406 then c.f 3 40 16 = 0x0101 || c.f 3 40 16 = 0x0601
    else k / 256 = 1 || k / 256 = 2 || k / 256 = 4 || queryCodes.contains k || k = 0x0901 || k = 0x0906
  | .lockdown => false

/-- The mode whose row of R346 is in force. -/
def State.serveMode (s : State) : Mode := if s.pwr.entering.isSome then .hold else s.pwr.mode

/-! ## Resources (R350) -/

/-- The resources a command names, as kind and number: 0 meadow, 1 flow context, 2 queue, 3 handle, 4 class,
5 pseudo-channel, 6 scrim region, 7 row, 8 engine, 9 entry, 10 lane, 11 port, 12 window, 13 slice of a host's aperture,
14 cue slot, 15 a device-wide setting, 16 clock, 18 fabric loop, 19 host, 20 queues 8k to 8k + 7, 21 pin, 22 stream engine.
A gate is none of R350's list, and CLOCK_GATE cancels a closing one (R413). -/
def Cmd.resources (c : Cmd) (h : Nat) : List (Nat × Nat) :=
  match c.code.toNat with
  | 0x0201 | 0x0202 =>
    if c.f 0 0 4 = 2 then (List.range 8).map fun k => (2, 8 * c.arg 1 + k)
    else [(match c.f 0 0 4 with | 0 => 0 | 1 => 1 | 3 => 7 | 4 => 0 | _ => 19, c.arg 1)]
  | 0x0301 => (15, 1) :: (if c.f 0 0 1 = 1 then [(3, c.f 1 0 20)] else [])
  | 0x0302 => [(3, c.f 1 0 20)]
  | 0x0303 | 0x0304 | 0x0902 => [(0, c.f 0 0 8)]
  | 0x0305 => [(0, c.f 0 0 8), (3, c.f 2 0 20)]
  | 0x0401 | 0x0402 | 0x0403 | 0x0404 => [(15, 2)]
  | 0x0405 => [(15, 16 + c.f 0 0 4)]
  | 0x0406 =>
    -- the target and the action of a cue entry are its bits [231:216] and [247:232]; a queue's slot is its argument's low bits
    let t := c.f 3 24 16
    (if c.f 3 61 1 = 1 then [(15, 16 + c.f 1 52 4)] else []) ++ (if c.f 3 40 16 = 0x0201 then [(3, c.f 2 24 20)] else []) ++
    match c.f 3 48 8 with
    | 2 => [(1, t)]
    | 3 => [(0, t)]
    | 4 => [(2, 8 * t + c.f 2 24 3)]
    | 5 => [(9, t)]
    | _ => []
  | 0x0407 | 0x0408 => [(14, c.f 0 0 14)]
  | 0x0501 => [(22, c.f 0 0 2), (3, c.f 1 0 20)]
  | 0x0502 | 0x0503 | 0x0504 | 0x0505 | 0x0507 => [(1, c.f 0 0 12)]
  | 0x0506 => [(1, c.f 0 0 12), (3, c.f 1 0 20)]
  | 0x0508 => (List.range 8).map fun p => (11, 8 * c.f 0 0 2 + p)
  | 0x0509 => [(11, 8 * c.f 0 0 2 + c.f 0 4 3)]
  | 0x050A => (11, 32 + c.f 0 0 5) :: (if c.f 0 5 1 = 1 then [(15, 16 + c.f 2 0 4)] else [])
  | 0x050B | 0x0A03 | 0x0A04 => [(10, c.f 0 0 7)]
  | 0x0601 | 0x0602 => [(4, c.f 0 0 8)]
  | 0x0603 | 0x0604 | 0x0605 => [(3, c.f 0 0 20)]
  | 0x0606 | 0x0701 | 0x0702 | 0x0703 | 0x0704 => [(5, c.f 0 0 5)]
  | 0x0607 => (3, c.f 1 0 20) :: (List.range (c.f 0 16 10)).map fun k => (13, 1024 * h + c.f 0 0 10 + k)
  | 0x0608 => (List.range (c.f 0 16 10)).map fun k => (13, 1024 * h + c.f 0 0 10 + k)
  | 0x0609 => (List.range 6).map fun k => (13, 1024 * h + c.f 0 0 10 + k)
  | 0x060A => [(2, c.f 0 0 17), (if c.f 1 63 1 = 1 then 9 else 2, c.f 1 0 17)]
  | 0x060B => [(2, c.f 0 0 17)]
  | 0x060C => [(12, c.f 0 0 10), (2, c.f 0 32 17)]
  | 0x0705 | 0x0706 => [(6, c.f 0 0 8)]
  | 0x0707 => [(15, 3 + c.f 0 0 1)]
  | 0x0801 => [(7, c.f 0 0 5), (3, c.f 1 0 20)]
  | 0x0802 | 0x0803 | 0x0A05 => [(7, c.f 0 0 5)]
  | 0x0804 => [(8, c.f 0 0 9)]
  | 0x0805 | 0x0806 | 0x0807 | 0x0808 => [(9, c.f 0 0 13)]
  | 0x0809 => [(15, 8 + c.f 0 0 2)]
  | 0x0901 => [(15, 5)]
  | 0x0903 => [(16, c.f 0 0 8)]
  | 0x0905 => [(18, c.f 0 0 6)]
  | 0x0A01 => if c.f 0 15 1 = 1 then (List.range 48).map fun k => (0, 48 * c.f 0 8 2 + k) else [(0, c.f 0 0 8)]
  | 0x0A06 => [(21, 48 * c.f 0 0 4 + c.f 0 8 6)]
  | 0x0B01 => [(15, 6)]
  | 0x0B02 => [(15, 6), (3, c.f 0 0 20)]
  | 0x0B03 => [(15, 7), (3, c.f 1 0 20)]
  | _ => []

end Sys2Proof.Machine
end

