-- ==== Sys2Proof/Machine/Flags.lean ====
section
/-! DEFINITION. The status words and registers that are computed from the state: identity, timeline, links. -/

namespace Sys2Proof.Machine

/-- ID_DEVICE (R325). -/
def State.idDevice (s : State) : Nat :=
  pack [(0x19612C35, 32), (s.sec.speed.toNat, 28), (s.sec.temp.toNat, 24), (s.sec.life.code, 20), (s.pwr.mode.code, 16)]

/-- ID_STATUS (R325). -/
def State.idStatus (s : State) : Nat :=
  pack [(s.pwr.lockCause.toNat, 56), (bit s.pwr.cfgErr, 55), (s.pwr.loadCause.toNat, 48)]

/-- HOST_SELF of host `h` (R325). -/
def State.hostSelf (s : State) (h : Nat) : Nat := pack [(s.pwr.owner, 13), (bit (s.hostWorld h), 12), (h, 0)]

/-- ACCESS_COUNTS of host `h` (R325). -/
def State.accessCounts (s : State) (h : Nat) : Nat :=
  pack [((s.mb h).denied.toNat, 48), ((s.mb h).apMiss.toNat, 32), ((s.mb h).gatedAcc.toNat, 0)]

def TlMode.code : TlMode → Nat
  | .freerun => 0 | .acquiring => 1 | .locked => 2 | .holdover => 3

/-- TL_STATUS (R29). -/
def State.tlStatus (s : State) : Nat :=
  pack [(s.tl.source.toNat, 12), (bit s.clk.coast, 11), (bit s.clk.fast, 10), (bit s.tl.stepPend.isSome, 9),
    (bit s.tl.stepped, 8), (bit s.tl.skewFault, 7), (s.tl.state.code, 0)]

/-- SMBALERT_N is driven low: host 4 has an unread response or event whose vector is not masked (R335), or the device
entered LOCKDOWN (R450). -/
def State.smbAlert (s : State) : Bool :=
  let m := s.mb 4
  s.wrd.alertForced || (m.rspW ≠ m.rspR && !m.irqMask.getLsbD 0) || (m.evW ≠ m.evR && !m.irqMask.getLsbD 1)

end Sys2Proof.Machine
end

