-- ==== Sys2Proof/Machine/Timeline.lean ====
section
/-! DEFINITION. The timeline (spec/02_timeline_and_cues.md): the increment, discipline, steps, frame grids, skew, and the
generator of the delay-list tick. -/

namespace Sys2Proof.Machine

/-! ## The increment (R24, R28, R34) -/

/-- The quotient of two numbers, rounded as the spec leaves open where it is not exact. -/
def openDiv (place a b : Nat) : Nat := if a % b = 0 then a / b else if Config.roundUp place a b then a / b + 1 else a / b

/-- TL_INCR for an adjustment in 2^-16 ppm: the base of 2.5 ns, or 3.0 ns in coast, and its share (R24, R28). -/
def incrOf (coast : Bool) (adj : Int) : BitVec 36 :=
  let base : Nat := if coast then 0x300000000 else 0x280000000
  BitVec.ofNat 36 (openDiv 1 (base * (65536000000 + adj).toNat) 65536000000)

/-- The full range of the servo in 2^-16 ppm: 500 ppm, or 6 % while the root loop runs from the fast oscillator (R28). -/
def State.servoRange (s : State) : Int := if s.clk.fast then 3932160000 else 32768000

/-- Apply a servo adjustment. -/
def State.setAdj (s : State) (adj : Int) : State := { s with tl.adj := adj, tl.incr := incrOf s.clk.coast adj }

/-- TL_INCR after the base or REF_FASTOSC has changed: the adjustment is kept (R34), but while an automatic step waits the
servo slews at the full range then in force (R31). DESIGN CHOICE (log 12): an adjustment beyond 500 ppm that was made while
REF_FASTOSC was set is kept when the root loop relocks to a crystal. -/
def State.rebase (s : State) : State := s.setAdj (if s.tl.stepPend.isSome then s.servoRange else s.tl.adj)

/-- The servo slews: the spec gives its range and no law, so the adjustment is a free value within the range (log 10). -/
def State.slew (s : State) : State :=
  let (v, s) := s.draw
  let r := s.servoRange
  s.setAdj (sgn 64 v.toNat % (2 * r + 1) - r)

/-! ## Steps (R30-R32) -/

/-- A time moved by a signed number of units, in the 48-bit count of seconds. -/
def moved (t : Nat) (d : Int) : Nat := (((t : Int) + d) % ((2 ^ 48 * secU : Nat) : Int)).toNat

/-- A forward span from `t` on contains the launch time of an armed cue (R31). -/
def State.cueInSpan (s : State) (t : Nat) (d : Int) : Bool :=
  decide (0 < d) && s.tl.cues.ents.any fun e => e.2.armed && t ≤ e.2.launch && decide ((e.2.launch : Int) ≤ t + d)

/-- A running SDI output keeps its place in elapsed time over a step by `d`, so that its frames no longer stand where the grid puts
them; what follows the frame in progress is placed anew while its blanking lasts (R317). -/
def SdiPort.stepped (x : SdiPort) (d : Int) : SdiPort :=
  if x.out then
    { x with cur := x.cur.map fun t => moved t d
             next := if x.line < sdiLines x.fmt.toNat then none else x.next.map fun t => moved t d }
  else x

/-- Step the timeline in all heaths: STEPPED sets, and TL_STEP gives the old value in DETAIL and the new one in TIME (R30).
The last PPS edge keeps its distance in elapsed time (log 12). -/
def State.stepBy (s : State) (d : Int) : State :=
  let t := moved s.tl.now d
  let s := each s.net.sdi.keys (fun j s => s.updSdi j fun x => x.stepped d) s
  ({ s with tl.now := t, tl.stepped := true, tl.ppsLast := s.tl.ppsLast.map fun p => moved p d }).eventAt s.hosts 0x0404 (timeField s.tl.now) t

/-- A step by host command: BUSY when its span passes over an armed cue. It ends a pending automatic step (log 12). -/
def hostStep (s : State) (d : Int) : Ans :=
  if s.cueInSpan s.tl.now d then .busy s else { s := ({ s with tl.stepPend := none, tl.adjNext := none }).stepBy d }

/-- An automatic step, applied at once or pending with the servo slewing at the full range meanwhile (R31). -/
def State.autoStepBy (s : State) (d : Int) : State :=
  if s.cueInSpan s.tl.now d then ({ s with tl.stepPend := some d }).setAdj s.servoRange else s.stepBy d

/-! ## State changes (R503) -/

/-- After an automatic step that waited: the host's adjustment of that time, or the servo goes on. -/
def State.afterStep (s : State) : State :=
  match s.tl.adjNext with
  | some a => ({ s with tl.adjNext := none }).setAdj a
  | none => s.slew

/-- STATE changes, with its event to every host: source and last offset (R348). A step that waits ends with ACQUIRING,
outside which the device never steps by itself (R30, log 12). -/
def State.tlTo (s : State) (st : TlMode) : State :=
  let s := { s with tl.state := st, tl.run := 0, tl.stepPend := if st = TlMode.acquiring then s.tl.stepPend else none,
                      tl.adjNext := if st = TlMode.acquiring then s.tl.adjNext else none }
  let code : BitVec 16 := match st with | .locked => 0x0401 | .holdover => 0x0402 | .acquiring => 0x0403 | .freerun => 0x040A
  s.allEvent code [s.tl.source.toNat, unsgn 64 s.tl.lastOff]

/-- A measurement of the disciplining source: the device's time less the source's, in ns (R30, R503). -/
def State.measured (s : State) (off : Int) : State :=
  let s := { s with tl.lastOff := off }
  let near := decide (-1000 ≤ off ∧ off ≤ 1000)
  match s.tl.state with
  | .freerun => s
  | .acquiring =>
    if near then
      let s := { s with tl.run := s.tl.run + 1 }
      let s := if s.tl.stepPend.isSome then s else s.slew
      if 16 ≤ s.tl.run then s.tlTo .locked else s
    else
      let s := { s with tl.run := 0 }
      if s.tl.stepPend.isSome then s
      else if s.tl.autoStep ∧ (off < -1000000 ∨ 1000000 < off) then s.autoStepBy (-off * nsU)
      else s.slew
  | .locked => if s.tl.stepPend.isSome then s else s.slew
  | .holdover => (if near then s.tlTo .locked else s.tlTo .acquiring).slew

/-- The source is lost, and R28 finds no other port (R503). -/
def State.sourceLost (s : State) : State :=
  match s.tl.state with
  | .locked => s.tlTo .holdover
  | _ => { s with tl.run := 0 }

/-! ## PTP ports (R27, R28, R502) -/

/-- Port block `b` runs the protocol. -/
def State.ptpNamed (s : State) (b : Nat) : Bool := s.tl.sel = 1 && (b = s.tl.primary || (s.tl.secUsed && b = s.tl.secondary))

/-- The other of the two ports named, if there is one. -/
def State.ptpOther (s : State) (b : Nat) : Option Nat :=
  if ¬ s.tl.secUsed ∨ s.tl.primary = s.tl.secondary then none
  else if b = s.tl.primary then some s.tl.secondary else some s.tl.primary

def PtpPort.lost (p : PtpPort) : Bool := !p.master || p.syncLost || p.annLost

/-- The port has a valid master (R28). -/
def PtpPort.valid (p : PtpPort) : Bool :=
  !p.lost && (match p.offset with | some o => decide (-1000 ≤ o ∧ o ≤ 1000) | none => false)

/-- The disciplining port is lost: discipline moves to the other port with a valid master, or the source is lost (R28). -/
def State.ptpLoss (s : State) (b : Nat) : State :=
  if s.ptpNamed b ∧ s.tl.source.toNat = b + 1 then
    match s.ptpOther b with
    | some o => if (s.ptp o).valid then { s with tl.source := BitVec.ofNat 4 (o + 1) } else s.sourceLost
    | none => s.sourceLost
  else s

/-- Discipline moves to the other port as soon as the disciplining port is lost and the other has a valid master, whichever
of the two comes last (R28). In HOLDOVER a measurement decides. -/
def State.ptpTakeover (s : State) : State :=
  let b := s.tl.source.toNat - 1
  if s.tl.sel = 1 ∧ s.tl.source ≠ 0 ∧ s.tl.state ≠ .holdover ∧ (s.ptp b).lost then
    match s.ptpOther b with
    | some o => if (s.ptp o).valid then { s with tl.source := BitVec.ofNat 4 (o + 1) } else s
    | none => s
  else s

/-- An offset measured on port block `b`: only the disciplining port steers, and in HOLDOVER the first measurement of
either port decides and that port disciplines from then on (R28). -/
def State.ptpMeasured (s : State) (b : Nat) (off : Int) : State :=
  let s := (s.setPtp b { s.ptp b with offset := some off }).ptpTakeover
  if s.tl.state = .holdover then ({ s with tl.source := BitVec.ofNat 4 (b + 1) }).measured off
  else if s.tl.source.toNat = b + 1 then s.measured off
  else s

/-- A valid Sync with the difference of receive and origin time. -/
def State.ptpSync (s : State) (b : Nat) (diff : Int) : State :=
  let p := { s.ptp b with syncLost := false, t2t1 := some diff, syncRx := none }
  let s := s.setPtp b p
  match p.delay with
  | some d => s.ptpMeasured b (diff - d)
  | none => s.ptpTakeover

/-- A stated Sync interval is from 2^-7 s to 1 s (R27). -/
def syncLogOk (l : Int) : Bool := decide (-7 ≤ l ∧ l ≤ 0)

/-- A master that states another Sync interval is not selected (R502). -/
def State.ptpDrop (s : State) (b : Nat) : State :=
  (s.setPtp b { s.ptp b with master := false, syncLost := true, annLost := true }).ptpLoss b

/-- PTP_MESSAGE: the protocol of a named port; a message of a port that runs no protocol changes nothing. -/
def execPtpMessage (b : BlockId) (msg : PtpMsg) (s : State) : Res :=
  if ¬ s.alive ∨ ¬ s.ptpNamed b then .next s
  else
    let p := s.ptp b
    match msg with
    | .announce log selected =>
      if selected then .next (s.setPtp b { p with master := true, annLog := log, annLost := false }).ptpTakeover else .next s
    | .sync log origin rx =>
      if ¬ p.master then .next s
      else if syncLogOk log then .next ((s.setPtp b { p with syncLog := log }).ptpSync b (rx - origin))
      else .next (s.ptpDrop b)
    | .syncTwoStep log rx =>
      if ¬ p.master then .next s
      else if syncLogOk log then .next (s.setPtp b { p with syncLog := log, syncRx := some rx })
      else .next (s.ptpDrop b)
    | .followUp origin =>
      match p.syncRx with
      | some rx => .next (s.ptpSync b (rx - origin))
      | none => .next s
    | .delayReqSent tx =>
      if p.master then .next ((s.setPtp b { p with delayTx := some tx }).emit (.delayReq b (Config.delayReqFcs b))) else .next s
    | .delayResp rx =>
      match p.delayTx, p.t2t1 with
      | some tx, some d => .next (s.setPtp b { p with delay := some ((d + (rx - tx)) / 2), delayTx := none })
      | _, _ => .next s
    | .other => .next s

/-- PTP_SYNC_TIMEOUT: no valid Sync for 8 Sync intervals. -/
def execPtpSyncTimeout (b : BlockId) (s : State) : Res :=
  if s.alive ∧ s.ptpNamed b ∧ ¬ (s.ptp b).syncLost then
    .next ((s.setPtp b { s.ptp b with syncLost := true }).ptpLoss b)
  else .next s

/-- ANNOUNCE_RECEIPT_TIMEOUT: no Announce for 3 Announce intervals; the port has no master. -/
def execAnnounceReceiptTimeout (b : BlockId) (s : State) : Res :=
  if s.alive ∧ s.ptpNamed b ∧ ¬ (s.ptp b).annLost then
    .next ((s.setPtp b { s.ptp b with annLost := true, master := false }).ptpLoss b)
  else .next s

/-! ## 1PPS and host discipline (R27) -/

/-- PPS_IN_EDGE: the offset is the timeline's distance from the nearest second. An edge more than 10 us from one second
after the last edge declares the source lost (log 12). DESIGN CHOICE (log 12): the offset is held against the limits of R503 in
whole ns, a fraction cut off. -/
def execPpsInEdge (s : State) : Res :=
  if s.alive ∧ s.tl.sel = 2 then
    let frac := s.tl.now % secU
    let off : Int := if 2 * frac < secU then (frac / nsU : Nat) else -(((secU - frac) / nsU : Nat) : Int)
    let bad := match s.tl.ppsLast with
      | some t =>
        let gap := ((s.tl.now : Int) - t) - secU
        -- a missing edge breaks the sequence
        decide (10000 * (nsU : Int) < gap ∨ gap < -10000 * (nsU : Int))
      | none => false
    let s := { s with tl.ppsLast := some s.tl.now }
    if bad then .next s.sourceLost else .next (s.measured off)
  else .next s

/-- PPS_LOSS_TIMEOUT: no edge for 1.1 s. -/
def execPpsLossTimeout (s : State) : Res :=
  if s.alive ∧ s.tl.sel = 2 ∧ s.tl.ppsLast.isSome then .next ({ s with tl.ppsLast := none }).sourceLost else .next s

/-- HOST_DISCIPLINE_TIMEOUT: no TIMELINE_ADJUST for 16 s. -/
def execHostDisciplineTimeout (s : State) : Res :=
  if s.alive ∧ s.tl.sel = 3 then .next s.sourceLost else .next s

/-! ## Commands -/

/-- The SOURCE code of a selection (R29). -/
def sourceCode (sel primary : Nat) : BitVec 4 := BitVec.ofNat 4 ([0, primary + 1, 5, 6].getD sel 0)

/-- A selection: STATE and SOURCE follow R503; ports that keep running the protocol in the same domain keep their state. DESIGN
CHOICE (log 12): while STATE stays ACQUIRING, an automatic step that waits survives the selection of another source and the
switching off of automatic steps. -/
def discipline (s : State) (c : Cmd) : Ans :=
  let sel := c.f 0 0 2
  let prim := c.f 0 4 2
  let sec := c.f 0 6 2
  let used := c.f 0 8 1 = 1
  let dom := BitVec.ofNat 7 (c.f 0 16 7)
  let s0 := { s with tl.autoStep := c.f 0 9 1 = 1 }
  if sel = s.tl.sel ∧ prim = s.tl.primary ∧ sec = s.tl.secondary ∧ used = s.tl.secUsed ∧ dom = s.tl.domain then { s := s0 }
  else
    let kept := if dom = s.tl.domain then
        s.tl.ports.drop fun b => !(s.ptpNamed b && sel = 1 && (b = prim || (used && b = sec)))
      else {}
    let s1 := { s0 with
      tl.sel := sel, tl.primary := prim, tl.secondary := sec, tl.secUsed := used, tl.domain := dom, tl.ports := kept
      tl.source := sourceCode sel prim, tl.run := 0, tl.ppsLast := none }
    let s2 := match s1.tl.state with
      | .freerun => if sel = 0 then s1 else s1.tlTo .acquiring
      | .acquiring => if sel = 0 then s1.tlTo .freerun else s1
      | .locked => s1.tlTo .holdover
      | .holdover => s1
    if sel = 1 ∧ (s2.ptp prim).lost then
      match s2.ptpOther prim with
      | some o => if (s2.ptp o).valid then { s := { s2 with tl.source := BitVec.ofNat 4 (o + 1) } } else { s := s2 }
      | none => { s := s2 }
    else { s := s2 }

def execTimelineDiscipline (h : HostId) (s : State) : Res := runCmd h 0x0401 anyCmd (fun s _ c => discipline s c) s

/-- TIMELINE_SET: a step to the given second and nanosecond. -/
def execTimelineSet (h : HostId) (s : State) : Res :=
  runCmd h 0x0402 anyCmd (fun s _ c =>
    hostStep s (((c.f 0 0 48 * secU + c.f 1 0 30 * nsU : Nat) : Int) - s.tl.now)) s

/-- TIMELINE_STEP: a step by a signed number of ns. -/
def execTimelineStep (h : HostId) (s : State) : Res :=
  runCmd h 0x0403 anyCmd (fun s _ c => hostStep s (sgn 64 (c.arg 0) * nsU)) s

/-- TIMELINE_ADJUST: NOT_READY unless SOURCE is host. The offset that the host's servo has measured is not an operand and
no rule states it: it is a free value (log 12). -/
def adjust (s : State) (c : Cmd) : Ans :=
  if s.tl.source ≠ 6 then .notReady s
  else
    let (v, s) := s.draw
    let s := s.measured (sgn 64 v.toNat)
    let adj := sgn 32 (c.f 0 0 32)
    if s.tl.stepPend.isSome then { s := { s with tl.adjNext := some adj } } else { s := s.setAdj adj }

def execTimelineAdjust (h : HostId) (s : State) : Res := runCmd h 0x0404 anyCmd (fun s _ c => adjust s c) s

/-! ## Frame grids (R36, R37) -/

/-- The grid that an armed grid cue refers to. -/
def Cue.grid (c : Cue) : Option Nat := if c.armed && c.entry.getLsbD 253 then some (fld c.entry.toNat 116 4) else none

/-- GRID_DEFINE: BUSY while armed cues refer to the grid. -/
def gridDefine (s : State) (c : Cmd) : Ans :=
  let g := c.f 0 0 4
  if s.tl.cues.ents.any fun e => e.2.grid = some g then .busy s
  else
    { s := { s with tl.grids := s.tl.grids.set none g (some
        { num := c.f 1 0 20, den := c.f 1 32 20, lines := c.f 0 16 14, switch1 := c.f 0 32 14, switch2 := c.f 0 48 14,
          lineOff := c.f 2 0 32, phase := sgn 64 (c.arg 3) }) } }

def execGridDefine (h : HostId) (s : State) : Res := runCmd h 0x0405 anyCmd (fun s _ c => gridDefine s c) s

/-- The quotient rounded up, of an integer. -/
def ceilDiv (a : Int) (b : Nat) : Int := -((-a) / (b : Int))

/-- The time at which line `l` of frame `n` is reached, exactly, then rounded up to 2^-16 ns; in 2^-32 ns (R37). -/
def Grid.lineTime (g : Grid) (n l : Nat) : Int :=
  let d := g.num * g.lines
  ceilDiv (((g.phase + g.lineOff) * d + (1000000000 * g.den * (n * g.lines + (l - 1)) : Nat)) * 65536) d * 65536

/-- The start of frame `n`, exactly, rounded up to 2^-16 ns, without the line offset (R37). -/
def Grid.frameTime (g : Grid) (n : Nat) : Int :=
  ceilDiv ((g.phase * g.num + (1000000000 * g.den * n : Nat)) * 65536) g.num * 65536

/-- The line a cue's LINE field names: 0 is SWITCH_LINE and 0x3FFF SWITCH_LINE2 (R38). -/
def Grid.line (g : Grid) (l : Nat) : Nat := if l = 0 then g.switch1 else if l = 0x3FFF then g.switch2 else l

/-! ## Skew, pending step, delay-list tick period -/

/-- SKEW_COMPARE: a replica that differs by more than one tick sets SKEW_FAULT, is reported and moves one tick towards the
master (R26). -/
def execSkewCompare (s : State) : Res :=
  if s.alive then
    .next (each [1, 2, 3] (fun h s =>
      let d := s.tl.skew.get 0 h
      let i : Int := s.tl.incr.toNat
      if d < -i ∨ i < d then
        let s := { s with tl.skewFault := true, tl.skew := s.tl.skew.set 0 h (if 0 < d then d - i else d + i) }
        s.ownerEvent 0x0405 [h, unsgn 64 (d / i)]
      else s) s)
  else .next s

/-- PENDING_STEP_APPLY: the automatic step is applied once no armed cue lies within the remaining span (R31). -/
def execPendingStepApply (s : State) : Res :=
  match s.tl.stepPend with
  | some d => if s.alive ∧ ¬ s.cueInSpan s.tl.now d then .next (({ s with tl.stepPend := none }).stepBy d).afterStep else .next s
  | none => .next s

/-- SCHED_TICK_SET: a new period counts from the last tick, also from one that is due at this edge and not yet given; a
counter that has already reached the new period ticks at the next edge (R49). -/
def schedTickSet (s : State) (c : Cmd) : Ans :=
  let g := s.tl.ticks.get {} (c.f 0 0 2)
  let p := c.f 1 0 20
  let g := if g.period * nsU ≤ g.phase then { g with period := p, phase := p * nsU + (g.phase - g.period * nsU) }
    else { g with period := p, force := g.force || decide (p * nsU ≤ g.phase), phase := min g.phase (p * nsU - 1) }
  { s := { s with tl.ticks := s.tl.ticks.set {} (c.f 0 0 2) g } }

def execSchedTickSet (h : HostId) (s : State) : Res := runCmd h 0x0809 anyCmd (fun s _ c => schedTickSet s c) s

end Sys2Proof.Machine
end

