-- ==== Sys2Proof/Machine/CueOps.lean ====
section
/-! DEFINITION. Cue slots as every unit that disarms cues uses them (spec/02_timeline_and_cues.md). -/

namespace Sys2Proof.Machine

/-! Fields of a cue entry (R38). -/
def Cue.f (c : Cue) (lo len : Nat) : Nat := fld c.entry.toNat lo len
def Cue.action (c : Cue) : Nat := c.f 232 16
def Cue.target (c : Cue) : Nat := c.f 216 16
def Cue.arg (c : Cue) : Nat := c.f 152 64
def Cue.notify (c : Cue) : Bool := c.entry.getLsbD 254

/-- The 32-bit handle of the cue in slot `k` = 4,096 heath + slot (R38). -/
def State.cueHandle (s : State) (k : Nat) : Nat := (s.cue k).gen.toNat * 2 ^ 24 + k % 16384

/-- A slot becomes free and its generation count increases by one (R41), after its last launch or by a disarm. -/
def State.freeCue (s : State) (k : Nat) (launched : Bool := false) : State :=
  s.setCue k { gen := (s.cue k).gen + 1, launched := launched }

/-- CUE_DISARMED to the arming host: cause and handle (R349). -/
def State.disarmedEvent (s : State) (host cause handle : Nat) : State :=
  s.eventAt [host] 0x0407 (BitVec.ofNat 96 (pack [(cause, 32), (handle, 0)])) s.tl.now

/-- Disarm the armed cue in slot `k` with an event of the cause (R45). -/
def State.disarm (s : State) (cause k : Nat) : State :=
  if (s.cue k).armed then (s.disarmedEvent (s.cue k).host cause (s.cueHandle k)).freeCue k else s

/-- Disarm every armed cue that `p` picks. -/
def State.disarmAll (s : State) (cause : Nat) (p : Cue → Bool) : State :=
  each ((s.tl.cues.ents.filter fun e => e.2.armed && p e.2).map (·.1)) (fun k s => s.disarm cause k) s

/-- A cue aimed at meadow `m`: RECOAT_SWAP or FABRIC_EVENT. -/
def Cue.atMeadow (m : Nat) (c : Cue) : Bool := c.action / 256 = 3 && c.target = m
/-- A cue aimed at queue `q`. -/
def Cue.atQueue (q : Nat) (c : Cue) : Bool := c.action = 0x0401 && 8 * c.target + c.arg % 8 = q
/-- A cue aimed at flow context `x`. -/
def Cue.atFlow (x : Nat) (c : Cue) : Bool := c.action / 256 = 2 && c.target = x
/-- A cue aimed at matching-store entry `n`. -/
def Cue.atEntry (n : Nat) (c : Cue) : Bool := c.action = 0x0501 && c.target = n

/-- Causes of R349. -/
def cTargetDeleted : Nat := 1
def cTargetRedefined : Nat := 2
def cRecoatRedefined : Nat := 3
def cFabricReload : Nat := 4
def cUndercoatFault : Nat := 5
def cHoldExitFailed : Nat := 6
def cFabricEventLost : Nat := 7

/-- A RECOAT_SWAP cue is armed on meadow `m`. -/
def State.swapArmed (s : State) (m : Nat) : Bool :=
  s.tl.cues.ents.any fun e => e.2.armed && e.2.action = 0x0301 && e.2.target = m

end Sys2Proof.Machine
end

