-- ==== Sys2Proof/Machine/Queues.lean ====
section
/-! DEFINITION. Hardware queues (spec/06_queue_controllers.md): credits, banks, the fabric ports, windows, set-up. -/

namespace Sys2Proof.Machine

/-! ## Configuration in force -/

/-- The skim fields of the live plane for skim block `k`. -/
def State.skimCfg (s : State) (k : Nat) : SkimCfg := (s.mea (k / 64)).live.pers.skims.get {} (k % 64)
/-- The fields of queue `i` of a block. -/
def SkimCfg.queue (c : SkimCfg) (i : Nat) : QueueCfg := c.q.get {} i
/-- Queue `i` of a block is enabled (R106, R111). -/
def SkimCfg.enabled (c : SkimCfg) (i : Nat) : Bool := c.queueMode && (c.queue i).cap ≠ 0
def State.qCfg (s : State) (q : Nat) : QueueCfg := (s.skimCfg (q / 8)).queue (q % 8)
def State.qEnabled (s : State) (q : Nat) : Bool := (s.skimCfg (q / 8)).enabled (q % 8)
/-- Capacity in words. -/
def QueueCfg.words (c : QueueCfg) : Nat := 16 * c.cap.toNat
/-- Word width in bits (R106). -/
def SkimCfg.width (c : SkimCfg) : Nat := if c.qwWidth = 0 then 16 else if c.qwWidth = 1 then 32 else 64

/-- The queue world of a skim block (R129). -/
def State.qWorld (s : State) (q : Nat) : Bool := s.que.world.get false (q / 8)
/-- The memory column that holds a queue (R99). -/
def State.qCol (s : State) (q : Nat) : ColState := (s.mea (q / 512)).col

def State.qPort (s : State) (k : Nat) : QPort := s.que.port.get {} k
def State.setQPort (s : State) (k : Nat) (p : QPort) : State := { s with que.port := s.que.port.set {} k p }

def Queue.slot (x : Queue) (i : Nat) : QSlot := x.slots.get {} i
def Queue.setSlot (x : Queue) (i : Nat) (v : QSlot) : Queue := { x with slots := x.slots.set {} i v }

/-- A queue at the start of its definition: empty, the fabric slot with its full grant, which the controller announces
(R108, R119). The grant never exceeds the capacity. -/
def freshQueue (c : QueueCfg) : Queue :=
  let g := 16 * min c.fcred.toNat c.cap.toNat
  ({} : Queue).setSlot 0 { grant := g, held := g, due := g }

/-! ## Read order (R112, R113) -/

/-- The words of a bank in read order: priority 3 first, first in first out within a priority. -/
def readOrder (l : List QWord) : List QWord :=
  (l.filter fun w => w.prio = 3) ++ (l.filter fun w => w.prio = 2) ++ (l.filter fun w => w.prio = 1) ++
    (l.filter fun w => w.prio = 0)

/-- The words a consumer can take, in the order in which it takes them. -/
def Queue.deliverable (x : Queue) : List QWord := x.chain ++ readOrder x.drain

/-- The head word. -/
def Queue.head (x : Queue) : Option QWord := x.deliverable.head?

/-- Words held. -/
def Queue.count (x : Queue) : Nat := x.chain.length + x.drain.length + x.fill.length

/-- Take the head word: it is delivered, and its credit returns to the slot that pushed it (R110). -/
def Queue.pop (x : Queue) : Queue :=
  match x.head with
  | none => x
  | some w =>
    let sl := x.slot w.slot
    let x := if sl.held < sl.grant then x.setSlot w.slot { sl with held := sl.held + 1, due := sl.due + 1 } else x
    let x := { x with seq := x.seq + 1 }
    match x.chain with
    | _ :: r => { x with chain := r }
    | [] => { x with drain := x.drain.erase w }

/-- A swap (R113). -/
def Queue.swap (x : Queue) : Queue :=
  { x with chain := x.chain ++ readOrder x.drain, drain := x.fill, fill := [], epoch := x.epoch + 1 }

/-- A push is applied: the slot spends a credit, and the word joins the filling bank (R109, R116). -/
def Queue.push (x : Queue) (slot : Nat) (prio : BitVec 2) (data : BitVec 64) : Queue :=
  let sl := x.slot slot
  { x.setSlot slot { sl with held := sl.held - 1 } with
    fill := x.fill ++ [{ data := data, prio := prio, epoch := x.epoch.setWidth 4, slot := slot }] }

/-- A discarded push is counted (R109). -/
def Queue.noCredit (x : Queue) : Queue := { x with nocred := satInc x.nocred }

/-- A push refused for another reason than credit: counted, and the slot's credit goes back to its producer (R504). -/
def Queue.giveBack (x : Queue) (slot : Nat) : Queue :=
  let sl := x.slot slot
  if sl.held = 0 then x.noCredit else (x.setSlot slot { sl with due := sl.due + 1 }).noCredit

/-- A narrower queue keeps the low bits of a word (R124). -/
def State.qData (s : State) (q : Nat) (d : BitVec 64) : BitVec 64 :=
  BitVec.ofNat 64 (d.toNat % 2 ^ (s.skimCfg (q / 8)).width)

/-! ## Hedgerow pushes (R124, R129, R504) -/

inductive PushRes where
  | taken | world | retention | noCredit | dropped
deriving DecidableEq, Repr

/-- Producer source codes of QUEUE_SETUP (R353). -/
def srcCode (kind index : Nat) : BitVec 32 := BitVec.ofNat 32 (kind * 2 ^ 28 + index)

/-- The slot 1-3 that a source holds on a queue. DESIGN CHOICE (log 13): R108 and R111 do not say whether two slots of one
queue may name one source; QUEUE_SETUP takes them, and a push spends the lowest. -/
def Queue.slotOf (x : Queue) (src : BitVec 32) : Option Nat := [1, 2, 3].find? fun i => (x.slot i).src = src

/-- A hedgerow push by a producer slot, or by a source that holds none, of a world: what the controller does with it. The
DENIED event is the caller's. -/
def State.slotPush (s : State) (slot : Option Nat) (world : Bool) (q : Nat) (prio : BitVec 2) (data : BitVec 64) : State × PushRes :=
  if ¬ (s.mea (q / 512)).gate.isOpen ∨ s.qCol q = .off then (s, .dropped)
  else
    let x := s.queue q
    match slot with
    | none => (s.setQueue q x.noCredit, if reaches world (s.qWorld q) then .noCredit else .world)
    | some i =>
      if ¬ reaches world (s.qWorld q) then (s.setQueue q (x.giveBack i), .world)
      else if (x.slot i).held = 0 then (s.setQueue q x.noCredit, .noCredit)
      else if s.qCol q = .retention then (s.setQueue q (x.giveBack i), .retention)
      else (s.setQueue q (x.push i prio (s.qData q data)), .taken)

/-- A hedgerow push of a source and world. -/
def State.hgPush (s : State) (src : BitVec 32) (world : Bool) (q : Nat) (prio : BitVec 2) (data : BitVec 64) : State × PushRes :=
  s.slotPush ((s.queue q).slotOf src) world q prio data

/-- CREDIT_RETURN_MESSAGE: one message for all credits pending to the source of a hedgerow slot (R124). A gate shows it on
hg_credit (R211). -/
def execCreditReturnMessage (q : QueueId) (slot : Fin 4) (s : State) : Res :=
  let x := s.queue q
  let sl := x.slot slot
  if slot.val ≠ 0 ∧ 0 < sl.due then
    .next ((s.setQueue q (x.setSlot slot { sl with due := 0 })).emit (.credit sl.src q sl.due))
  else .next s

/-! ## Fabric ports (R117-R122) -/

/-- A fabric port of a skim block acts at an edge of its clock: the clock runs, the block is a queue controller, and no
masking stands (R106, R130). DESIGN CHOICE (log 13): while the ports are ignored their registers keep what they showed. -/
def State.qFabric (s : State) (k : Nat) (clk : BitVec 4) : Bool :=
  s.netRuns (k / 64) clk && (s.skimCfg k).queueMode && !(s.mea (k / 64)).masked

/-- The producer port, clocked by A_CLK_SEL, and the consumer port, clocked by B_CLK_SEL (R106). -/
def State.qProducer (s : State) (k : Nat) : Bool := s.qFabric k (s.skimCfg k).a.clk
def State.qConsumer (s : State) (k : Nat) : Bool := s.qFabric k (s.skimCfg k).b.clk

/-- The meadow's world equals the block's queue world (R129). -/
def State.qFabricWorld (s : State) (k : Nat) : Bool := decide ((s.mea (k / 64)).world = s.que.world.get false k)

/-- MEM_UNCORRECTABLE to the owner: block kind, block, row, lane (R97, R348). -/
def State.memUncorrectable (s : State) (kind block row lane : Nat) : State := s.ownerEvent 0x0103 [kind, block, row, lane]

/-- Deliver the head word of a queue; an uncorrectable row is reported (R123). DESIGN CHOICE (log 13): where a word lies in
the array is internal to the controller, so the event's row is the queue's number in its block and its lane 0. -/
def State.deliver (s : State) (q : Nat) : State :=
  let x := s.queue q
  let s := s.setQueue q x.pop
  match x.head with
  | some w => if w.err then s.memUncorrectable 0 (q / 8) (q % 8) 0 else s
  | none => s

/-- Queue `i` of a block has a word for the fabric consumer port (R120, R129). -/
def State.qHasWord (s : State) (k i : Nat) : Bool :=
  let q := 8 * k + i
  s.qFabricWorld k && decide ((s.qCfg q).cons = 0) && s.qEnabled q && decide (s.qCol q = .on) && (s.queue q).head.isSome

/-- q_valid[7:0]. -/
def State.qValid (s : State) (k : Nat) : BitVec 8 := BitVec.ofNat 8 (pack ((List.range 8).map fun i => (bit (s.qHasWord k i), i)))

/-- q_drop after one more producer edge: high for one cycle, two edges after the push (R117). -/
def QPort.edge (p : QPort) : QPort := { p with drop := p.dropIn.getLsbD 2, dropIn := p.dropIn <<< 1 }

/-- FABRIC_CREDIT_REPORT: the end of a producer edge, every credit returned to one queue's fabric slot reported (R118). A push
of the same edge goes before it (log 13). -/
def execFabricCreditReport (k : SkimId) (s : State) : Res :=
  if ¬ s.qProducer k then .next s
  else
    let p := (s.qPort k).edge
    let order := (List.range 8).map fun j => (p.lastServed + 1 + j) % 8
    match order.find? fun i => decide (0 < ((s.queue (8 * k.val + i)).slot 0).due) with
    | some i =>
      let q := 8 * k.val + i
      let x := s.queue q
      .next ((s.setQueue q (x.setSlot 0 { x.slot 0 with due := 0 })).setQPort k
        { p with credit := some (i, (x.slot 0).due), lastServed := i })
    | none => .next (s.setQPort k { p with credit := none })

/-- The controller announces the fabric slot's full holding (R119). -/
def State.announceFabric (s : State) (q : Nat) : State :=
  s.updQueue q fun x => x.setSlot 0 { x.slot 0 with due := (x.slot 0).held }

/-- QUEUE_AUTO_SWAP: with Q_AUTOSWAP 1, when chain and draining bank are empty and the filling bank is not (R114). -/
def execQueueAutoSwap (q : QueueId) (s : State) : Res :=
  let x := s.queue q
  if s.running ∧ s.qEnabled q ∧ (s.qCfg q).auto ∧ s.qCol q = .on ∧ x.chain = [] ∧ x.drain = [] ∧ x.fill ≠ [] then
    .next (s.setQueue q x.swap)
  else .next s

/-! ## Windows (R126-R128, R505, R334) -/

/-- The binding of window `n` for host `h`: queue, producer slot, consumer role. -/
def State.window (s : State) (h n : Nat) : Option (Nat × Nat × Bool) :=
  match s.que.win.get none n with
  | some (g, q, sl, c) => if g = h then some (q, sl, c) else none
  | none => none

/-- A host reaches the windows of running units: in HOLD they behave as gated windows (R331). -/
def State.windowsServed (s : State) : Bool := s.pwr.mode ≠ .hold

/-- QUEUE_WINDOW_PUSH (R126, R128): a push through the window's producer slot, in the world of the bound host. -/
def State.windowPush (s : State) (h n : Nat) (prio : BitVec 2) (data : BitVec 64) : State :=
  match s.window h n with
  | none => s.gatedAcc h
  | some (q, sl, _) =>
    if ¬ s.windowsServed then s.gatedAcc h
    else
      -- a window that no longer holds the slot named at its map has no producer role (R109, R128)
      let slot := if sl ≠ 0 ∧ ((s.queue q).slot sl).src = srcCode 5 n then some sl else none
      let (s, r) := s.slotPush slot (s.hostWorld h) q prio data
      if r = .world then s.denyBar0 h 2 q else s

/-- A write to POP (R127, R505). -/
def State.windowPop (s : State) (h n : Nat) (v : BitVec 64) : State :=
  match s.window h n with
  | none => s.gatedAcc h
  | some (q, _, cons) =>
    if ¬ s.windowsServed then s.gatedAcc h
    else if ¬ reaches (s.hostWorld h) (s.qWorld q) then s.denyBar0 h 2 q
    else
      let x := s.queue q
      if cons ∧ (s.qCfg q).cons = 2 ∧ s.qEnabled q ∧ s.qCol q = .on ∧ x.head.isSome ∧ v.setWidth 16 = x.seq then s.deliver q
      else if s.qCol q = .on then s.setQueue q { x with popIgn := satInc x.popIgn }
      else s

def execQueueWindowPush (h : HostId) (n : WindowId) (prio : BitVec 2) (data : BitVec 64) (s : State) : Res :=
  if s.alive then .next (s.windowPush h n prio data) else .next s

def execQueueWindowPop (h : HostId) (n : WindowId) (v : BitVec 64) (s : State) : Res :=
  if s.alive then .next (s.windowPop h n v) else .next s

/-! ## Registers of a queue (R126) -/

def State.qStatus (s : State) (q : Nat) : Nat :=
  let x := s.queue q
  pack [(x.epoch.toNat, 48), (x.fill.length, 32), (x.chain.length + x.drain.length, 16), ((if s.qEnabled q then (s.qCfg q).words else 0), 0)]

def Queue.counts (x : Queue) : Nat := pack [(x.nocred.toNat, 16), (x.popIgn.toNat, 0)]

def Queue.headTag (x : Queue) : Nat :=
  match x.head with
  | some w => pack [(1, 31), (w.prio.toNat, 20), (w.epoch.toNat, 16), (x.seq.toNat, 0)]
  | none => x.seq.toNat

/-! ## QUEUE_SETUP, QUEUE_QUERY, QUEUE_WINDOW_MAP (R108, R111, R125, R128) -/

/-- Slot words of QUEUE_SETUP: source and credits of slots 1-3. A slot without a source has no credits. -/
def setupSlots (c : Cmd) : List (Nat × Nat) := [2, 3, 4].map fun i => (c.f i 32 32, c.f i 0 13)

/-- The slots 1-3 a QUEUE_SETUP gives, each with its full grant. A gate slot learns its credits by a report (log 13). -/
def newSlots (x : Queue) (l : List (Nat × Nat)) : Queue :=
  (l.zipIdx 1).foldl (fun x p => x.setSlot p.2
    { src := BitVec.ofNat 32 p.1.1, grant := p.1.2, held := p.1.2, due := if fld p.1.1 28 4 = 3 then p.1.2 else 0 }) x

/-- QUEUE_SETUP. DESIGN CHOICE (log 13): BUSY (R111) is tested before NO_RESOURCE (R108), and Q_EPOCH is no counter that a
replacement clears. DEDUCED (log 13): R186's equal worlds hold for the words as they are offered; the target the world cannot
reach, which QUEUE_SETUP denies (R125), is one that R436 bars, so a secure queue may name a non-secure entry. -/
def queueSetup (s : State) (h : Nat) (c : Cmd) : Ans :=
  let q := c.f 0 0 17
  let x := s.queue q
  let cfg := s.qCfg q
  let l := setupSlots c
  let fwd := BitVec.ofNat 64 (c.arg 1)
  let toEntry := c.f 1 63 1 = 1
  let n := c.f 1 0 17
  if ¬ s.qEnabled q then .bad s 0 0
  else if cfg.cons ≠ 1 ∧ c.arg 1 ≠ 0 then .bad s 1 0
  else if cfg.cons = 1 ∧ toEntry ∧ ¬ (s.ent n).slotmask.getLsbD (c.f 1 17 2) then .bad s 1 17
  else
    match (l.zipIdx 2).find? fun p => !(if p.1.1 = 0 then p.1.2 = 0 else srcOk p.1.1) with
    | some p => .bad s p.2 32
    | none =>
      if ¬ reaches c.world (s.qWorld q) then .denied s h c
      else if cfg.cons = 1 ∧ ¬ reaches (s.qWorld q) (if toEntry then (s.ent n).world else s.qWorld n) then .denied s h c
      else
        let newFwd := if cfg.cons = 1 then some fwd else none
        -- a column that was OFF has left the queue undefined, its fabric slot without its grant (R99)
        let undefinedQ := (x.slot 0).grant ≠ ((freshQueue cfg).slot 0).grant
        let x := if undefinedQ then freshQueue cfg else x
        let same := !undefinedQ && (l.zipIdx 1).all fun p => (x.slot p.2).src = BitVec.ofNat 32 p.1.1 && (x.slot p.2).grant = p.1.2
        if same then
          if x.fwd = newFwd then .ignored s else { s := s.setQueue q { x with fwd := newFwd } }
        else if x.count ≠ 0 ∨ (List.range 4).any fun i => (x.slot i).held ≠ (x.slot i).grant then .busy s
        else if cfg.words < 16 * cfg.fcred.toNat + (l.map (·.2)).foldl (· + ·) 0 then .noRes s
        else
          let s := s.setQueue q { newSlots x l with fwd := newFwd, nocred := 0, popIgn := 0, seq := 0 }
          { s := s.disarmAll cTargetRedefined (Cue.atQueue q) }

def execQueueSetup (h : HostId) (s : State) : Res := runCmd h 0x060A anyCmd queueSetup s

def queueQuery (s : State) (h : Nat) (c : Cmd) : Ans :=
  let q := c.f 0 0 17
  let x := s.queue q
  if ¬ reaches c.world (s.qWorld q) then .denied s h c
  else
    let full := (List.range 4).all fun i => (x.slot i).held = (x.slot i).grant
    { s := s, res := [s.qStatus q, bit (x.count = 0) + 2 * bit full] ++
        (List.range 4).map fun i => Config.resultWord 0x060B (2 + i) [(x.slot i).src.toNat, (x.slot i).grant, (x.slot i).held] }

def execQueueQuery (h : HostId) (s : State) : Res := runCmd h 0x060B anyCmd queueQuery s

/-- QUEUE_WINDOW_MAP with [8] = 0. -/
def queueWindowMap (s : State) (h : Nat) (c : Cmd) : Ans :=
  let n := c.f 0 0 10
  let q := c.f 0 32 17
  let sl := c.f 1 0 2
  let cons := c.f 1 4 1 = 1
  if sl ≠ 0 ∧ ((s.queue q).slot sl).src ≠ srcCode 5 n then .bad s 1 0
  else if cons ∧ ¬ (s.qEnabled q ∧ (s.qCfg q).cons = 2) then .bad s 1 4
  else if ¬ reaches c.world (s.qWorld q) then .denied s h c
  else
    match s.que.win.get none n with
    | some (g, _) =>
      if g ≠ h then .busy s else { s := { s with que.win := s.que.win.set none n (some (h, q, sl, cons)) } }
    | none => { s := { s with que.win := s.que.win.set none n (some (h, q, sl, cons)) } }

def execQueueWindowMap (h : HostId) (s : State) : Res := runCmd h 0x060C (fun c => c.f 1 8 1 = 0) queueWindowMap s

/-- QUEUE_WINDOW_MAP with [8] = 1: unmap. The slot and its credits stay with the window (R128). -/
def queueWindowUnmap (s : State) (h : Nat) (c : Cmd) : Ans :=
  let n := c.f 0 0 10
  if ¬ reaches c.world (s.qWorld (c.f 0 32 17)) then .denied s h c
  else
    match s.que.win.get none n with
    | some (g, _) => if g ≠ h then .busy s else { s := { s with que.win := s.que.win.set none n none } }
    | none => { s := s }

def execQueueWindowUnmap (h : HostId) (s : State) : Res := runCmd h 0x060C (fun c => c.f 1 8 1 = 1) queueWindowUnmap s

/-! ## Redefinition and worlds (R129, R130) -/

/-- A queue whose definition changes: its words are discarded, its slots cleared, its cues disarmed (R130). -/
def State.redefine (s : State) (q : Nat) (c : QueueCfg) (on : Bool) (cause : Nat) : State :=
  let n := (s.queue q).count
  let s := s.setQueue q (if on then freshQueue c else {})
  let p := s.qPort (q / 8)
  let s := s.setQPort (q / 8) { p with
    valid := p.valid &&& ~~~((1 : BitVec 8) <<< (q % 8)), dout := if p.rsel = q % 8 then none else p.dout }
  (s.disarmAll cause (Cue.atQueue q)).ownerEvent 0x0602 [q, n]

/-- The source of a hedgerow slot is non-secure at this moment: a gate, a window or a forwarding queue (R129). -/
def State.srcNonSecure (s : State) (src : BitVec 32) : Bool :=
  let i := fld src.toNat 0 28
  match fld src.toNat 28 4 with
  | 3 => !(s.mea i).world
  | 5 => match s.que.win.get none i with | some (h, _) => !s.hostWorld h | none => true
  | 6 => !s.qWorld i
  | _ => false

/-- Revoke the credits of a queue's slots whose source is non-secure, each with its event (R129). -/
def State.revoke (s : State) (q : Nat) : State :=
  each [1, 2, 3] (fun i s =>
    let x := s.queue q
    let sl := x.slot i
    if sl.grant ≠ 0 ∧ s.srcNonSecure sl.src then
      (s.setQueue q (x.setSlot i { src := sl.src })).ownerEvent 0x0202 [q, i, sl.held]
    else s) s

/-- The queue world of a skim block changes (R129). -/
def State.setQWorld (s : State) (k : Nat) (w : Bool) : State :=
  let s := { s with que.world := s.que.world.set false k w }
  if w then each (List.range 8) (fun i s => s.revoke (8 * k + i)) s else s

end Sys2Proof.Machine
end

