-- ==== Sys2Proof/Machine/Routing.lean ====
section
/-! DEFINITION. The fabric between its registers: where tussocks, wires and crossings lie, what a multiplexer selects, what
the cells compute (spec/03_cells_tufts_tussocks.md, spec/04_routing.md), and the pins (spec/23_io_cells_and_pins.md). -/

namespace Sys2Proof.Machine

/-! ## Geometry (R70) -/

/-- Column 0-31 and row 0-63 in its meadow of tussock 32 sward + t. -/
def tusCol (t : Nat) : Nat := 4 * (t / 32 % 8) + t % 32 / 8
def tusRow (t : Nat) : Nat := 8 * (t / 32 / 8) + t % 8

/-- The tussock at a column and a row of its meadow. -/
def tusAt (col row : Nat) : Nat := 32 * (8 * (row / 8) + col / 4) + 8 * (col % 4) + row % 8

/-- Global position in its heath of tussock `t` of meadow `m`. -/
def tusX (m t : Nat) : Nat := 32 * (m % 48 % 8) + tusCol t
def tusY (m t : Nat) : Nat := 64 * (m % 48 / 8) + tusRow t

/-- The meadow that adjoins meadow `m` in a direction; none at the outer edge of the heath (R83). -/
def neighbour (m : Nat) : Dir → Option Nat
  | .north => if m % 48 / 8 < 5 then some (m + 8) else none
  | .south => if 0 < m % 48 / 8 then some (m - 8) else none
  | .east => if m % 8 < 7 then some (m + 1) else none
  | .west => if 0 < m % 8 then some (m - 1) else none

def Dir.code : Dir → Nat
  | .north => 0 | .east => 1 | .south => 2 | .west => 3
def Dir.back : Dir → Dir
  | .north => .south | .south => .north | .east => .west | .west => .east

/-! ## Wires (R71, R72) -/

def WireClass.code : WireClass → Nat
  | .l1 => 0 | .l2 => 1 | .l4 => 2 | .l16 => 3 | .w1 => 4 | .w4 => 5 | .w16 => 6
/-- Span in tussock pitches. -/
def WireClass.span : WireClass → Nat
  | .l1 | .w1 => 1 | .l2 => 2 | .l4 | .w4 => 4 | .l16 | .w16 => 16
/-- Wires that a tussock drives, per direction. -/
def WireClass.count : WireClass → Nat
  | .l1 | .l2 => 8 | .l4 => 4 | .l16 | .w1 => 2 | .w4 | .w16 => 1
/-- The word plane carries it. -/
def WireClass.word : WireClass → Bool
  | .w1 | .w4 | .w16 => true | _ => false
/-- Inputs of the multiplexer that drives it (R76). -/
def WireClass.inputs : WireClass → Nat
  | .l1 => 28 | .l2 => 24 | .l4 => 20 | .l16 => 12 | .w1 => 6 | .w4 => 5 | .w16 => 4

/-- The wire exists: W16 wires leave only the tussocks at column 0 of their sward. -/
def Wire.isReal (w : Wire) : Bool := decide (w.tus < 2048 ∧ w.n < w.cls.count) && (w.cls ≠ .w16 || decide (w.tus % 32 < 8))

/-- The number of a wire in its meadow. -/
def Wire.key (w : Wire) : Nat := ((w.tus * 8 + w.cls.code) * 4 + w.dir.code) * 8 + w.n

/-- The wire of a number. -/
def wireOf (k : Nat) : Option Wire :=
  let cls := [WireClass.l1, .l2, .l4, .l16, .w1, .w4, .w16].getD (k / 32 % 8) .l1
  let w : Wire := { tus := k / 256, cls := cls, dir := [Dir.north, .east, .south, .west].getD (k / 8 % 4) .north, n := k % 8 }
  if w.isReal ∧ w.key = k then some w else none

/-- The tussock at which a wire ends: the span away, or at the edge of its meadow. -/
def Wire.stop (w : Wire) : Nat :=
  let c := tusCol w.tus
  let r := tusRow w.tus
  match w.dir with
  | .north => tusAt c (min 63 (r + w.cls.span))
  | .south => tusAt c (r - w.cls.span)
  | .east => tusAt (min 31 (c + w.cls.span)) r
  | .west => tusAt (c - w.cls.span) r

/-- The pitches that a wire travels. -/
def Wire.run (w : Wire) : Nat :=
  let c := tusCol w.tus
  let r := tusRow w.tus
  min w.cls.span (match w.dir with | .north => 63 - r | .south => r | .east => 31 - c | .west => c)

/-- Register points: at the end of L4, L16, W4 and W16 wires, and at the midpoint of L16 and W16 wires that pass it. -/
def Wire.hasEnd (w : Wire) : Bool := 4 ≤ w.cls.span
def Wire.hasMid (w : Wire) : Bool := w.cls.span = 16 && decide (8 < w.run)

/-- Register point 0 midpoint, 1 end: its number in the meadow. -/
def Wire.point (w : Wire) (i : Nat) : Nat := 2 * w.key + i

/-- The register that configuration and class put at a point of a wire. -/
def Personality.regAt (p : Personality) (w : Wire) (i : Nat) : RegCfg :=
  if (if i = 0 then w.hasMid else w.hasEnd) then p.wires.get {} (w.point i) else {}

/-! ## Crossings (R83) -/

def Crossing.key (x : Crossing) : Nat := (x.dir.code * 2 + bit x.word) * 512 + x.n

/-- Crossings along a shared edge, per direction. -/
def edgeCount (d : Dir) (word : Bool) : Nat :=
  match d with
  | .east | .west => if word then 32 else 512
  | .north | .south => if word then 16 else 256

/-- A meadow's crossings of one edge are numbered along it: bits 8 to a tussock row or column, words one to two of them. -/
def Crossing.sits (x : Crossing) (t : Nat) : Bool :=
  let i := match x.dir with | .east | .west => tusRow t | .north | .south => tusCol t
  let border : Bool := match x.dir with
    | .east => tusCol t = 31 | .west => tusCol t = 0 | .north => tusRow t = 63 | .south => tusRow t = 0
  border && (if x.word then x.n = i / 2 else x.n / 8 = i)

/-- The crossing exists: its number lies on its edge, and a meadow adjoins there. -/
def Crossing.isReal (x : Crossing) (m : Nat) : Bool := decide (x.n < edgeCount x.dir x.word) && (neighbour m x.dir).isSome

/-- All numbers of crossings of a meadow. -/
def allCrossings : List Crossing :=
  [Dir.north, .east, .south, .west].flatMap fun d =>
    [false, true].flatMap fun w => (List.range (edgeCount d w)).map fun n => { dir := d, word := w, n := n }

/-- Crossings that a personality configures; every other one carries zero. -/
def Personality.crossed (p : Personality) : List Crossing :=
  allCrossings.filter fun x =>
    p.crossings.keys.contains x.key || p.sel.keys.contains (4 + 16 * x.key)

/-! ## Multiplexers (R61, R76, R135) -/

/-- The number of a multiplexer in its meadow. -/
def Mux.key : Mux → Nat
  | .cell k i => 16 * (8 * k + i)
  | .ce t => 1 + 16 * t
  | .sr t => 2 + 16 * t
  | .wire w => 3 + 16 * w.key
  | .cross x => 4 + 16 * x.key
  | .wordIn t => 5 + 16 * t
  | .trowelWord s i => 6 + 16 * (8 * s + i)
  | .trowelBit s i => 7 + 16 * (8 * s + i)
  | .pin p i => 8 + 16 * (8 * p + i)
  | .skimWord p l => 11 + 16 * (4 * p + l)
  | .screedWord p l => 12 + 16 * (4 * p + l)
  | .hardWord i => 9 + 16 * i
  | .hardBit i => 10 + 16 * i

/-- The word plane drives it. -/
def Mux.word : Mux → Bool
  | .wire w => w.cls.word
  | .cross x => x.word
  | .wordIn _ | .trowelWord _ _ | .skimWord _ _ | .screedWord _ _ | .hardWord _ => true
  | _ => false

/-- Its inputs n: codes 1 to n select them (R76). -/
def Mux.inputs : Mux → Nat
  | .wire w => w.cls.inputs
  | .cross x => if x.word then 4 else 12
  | .wordIn _ | .trowelWord _ _ | .skimWord _ _ | .screedWord _ _ | .hardWord _ => 10
  | _ => 40

/-- The inputs of the multiplexer whose number in its meadow is `key`. -/
def muxInputs (key : Nat) : Nat :=
  match key % 16 with
  | 3 => [28, 24, 20, 12, 6, 5, 4, 0].getD (key / 16 / 32 % 8) 0
  | 4 => if key / 16 / 512 % 2 = 1 then 4 else 12
  | 5 | 6 | 9 | 11 | 12 => 10
  | _ => 40

/-- The multiplexer lies at tussock `t`. The spec gives slices their sward and I/O cells their meadow, and no tussock (log 5). -/
def Mux.sits (x : Mux) (t : Nat) : Bool :=
  match x with
  | .cell k _ => k / 32 = t
  | .ce u | .sr u => u / 4 = t
  | .wire w => w.tus = t
  | .cross c => c.sits t
  | .wordIn u => u = t
  | .trowelWord s _ | .trowelBit s _ => t / 32 = s
  | .skimWord p _ => t / 32 = p / 2
  | .pin _ _ | .screedWord _ _ | .hardWord _ | .hardBit _ => true

/-- The multiplexer lies in sward `s`, or its place is not given. -/
def Mux.inSward (x : Mux) (s : Nat) : Bool := (List.range 32).any fun t => x.sits (32 * s + t)

/-- A signal can be an input of a multiplexer: it is of its plane and arrives where the multiplexer lies (R61, R71, R72, R82,
R83, R135). -/
def Sig.reaches (g : Sig) (x : Mux) : Bool :=
  match g with
  | .zero => true
  | .cell k _ => !x.word && x.sits (k / 32)
  | .carryOut t _ => !x.word && x.sits t
  | .wire w => w.isReal && w.cls.word = x.word && x.sits w.stop
  | .cross c => c.word = x.word && (List.range 2048).any fun t => c.sits t && x.sits t
  | .spine n => match x with | .sr _ => decide (n < 2) | _ => false
  | .wordOut t => x.word && x.sits t
  | .trowel s i =>
    if i < 2 then
      match x with | .wire w => (w.cls = .w1 || w.cls = .w4) && decide (w.tus / 32 = s ∧ w.tus % 32 < 8) | _ => false
    else !x.word && x.inSward s
  | .skim p _ => x.word && x.inSward (p / 2)
  | .screed _ _ => x.word
  | .pin _ _ => !x.word
  | .hard _ => true

/-! ## Pins: what the fabric sees of them (R474, R476, R478) -/

/-- The pin of the device that pin number `p` of meadow `m` is: bank 4h + b attaches to meadows 40 + 2b and 41 + 2b. -/
def meadowPin (m p : Nat) : Option Nat :=
  let l := m % 48
  if 40 ≤ l ∧ p / 24 = l % 2 ∧ p < 48 then some (48 * (4 * (m / 48) + (l - 40) / 2) + p) else none

/-- The meadow that configures a pin of the device. -/
def pinMeadow (k : Nat) : Nat := 48 * (k / 192) + 40 + 2 * (k / 48 % 4) + k % 48 / 24

/-- The fields of a pin's cell in the live plane. -/
def State.pinCfg (s : State) (k : Nat) : IoCfg := (s.mea (pinMeadow k)).live.pers.ios.get {} (k % 48)

/-- LVDS with INV swaps the legs (R475). -/
def IoCfg.swaps (c : IoCfg) : Bool := c.std = 0xB && c.inv

/-- LVDS: pins 2n and 2n + 1 are one pair, whose cell is that of pin 2n, the P leg (R472; log 32). -/
def State.pairP (s : State) (k : Nat) : Option Nat :=
  let p := k / 2 * 2
  if (s.pinCfg p).std = 0xB then some p else none

/-- The level a pin's input shows to the fabric: zero for a VCCIO fault, a failed bank rail or a masked meadow (R478). An LVDS
pair shows the level of its P leg while the legs differ, and a free level while they do not (R472; log 32). -/
def State.padIn (s : State) (k : Nat) : Bool :=
  if (s.pin k).fault = some .vccio ∨ (s.pwr.down.any fun r => r = .vccio (Fin.ofNat 16 (k / 48))) ∨
      (s.mea (pinMeadow k)).masked then false
  else match s.pairP k with
    | some p =>
      if (s.pin p).pad = (s.pin (p + 1)).pad then (Config.freeValue s.free).getLsbD (p % 64)
      else xor (s.pin p).pad (s.pinCfg p).swaps
    | none => (s.pin k).pad

/-- Output i of an I/O cell to the fabric (R474, R476): code 0 of IO_CLK_SEL makes every register transparent. The input to the
fabric is zero in a masked meadow, whatever the registers hold, as for a failed rail and a VCCIO fault (R478). -/
def State.pinSig (s : State) (k i : Nat) : Bool :=
  let c := s.pinCfg k
  let r := (s.pin k).reg
  let zero := (s.pin k).fault = some .vccio ∨ (s.pwr.down.any fun r => r = .vccio (Fin.ofNat 16 (k / 48))) ∨ (s.mea (pinMeadow k)).masked
  if i < 2 ∧ zero then false
  else if i = 0 then (if c.clk = 0 ∨ c.ireg = 0 then s.padIn k else r.i0)
  else if i = 1 then (if c.ireg ≠ 2 then false else if c.clk = 0 then s.padIn k else r.i1)
  else if i < 11 then r.itap.getLsbD (i - 2)
  else (s.pin k).fault.isSome

/-! ## Cells (R50-R58) -/

/-- HO: entry m of the lower half. -/
def CellCfg.ho (c : CellCfg) (l : BitVec 6) : Bool := c.tbl.getLsbD (l.toNat % 32)
/-- FO: the upper half when fractured or L5 is 1, else the lower half. -/
def CellCfg.fo (c : CellCfg) (l : BitVec 6) : Bool :=
  if c.fracture ∨ l.getLsbD 5 then c.tbl.getLsbD (32 + l.toNat % 32) else c.ho l
/-- S and CO from the carry in (R56). -/
def CellCfg.sum (c : CellCfg) (fo ci : Bool) : Bool := if c.carryUse then xor fo ci else fo
def CellCfg.co (c : CellCfg) (fo ho x ci : Bool) : Bool :=
  if c.carryUse then (if fo then ci else if c.carryG then x else ho) else ci
/-- MA: FO or S, as MA_SEL selects (R56). -/
def CellCfg.ma (c : CellCfg) (fo ci : Bool) : Bool := if c.maSel then c.sum fo ci else fo

/-- The data inputs of flip-flops A and B (R52). -/
def CellCfg.dA (c : CellCfg) (fo s x w : Bool) : Bool := [fo, s, x, w].getD c.dselA.toNat false
def CellCfg.dB (c : CellCfg) (ho x co w : Bool) : Bool := [ho, x, co, w].getD c.dselB.toNat false

/-- A cell's number in its meadow. -/
def cellKey (sward t c : Nat) : Nat := 1024 * sward + 32 * t + c

/-- The tuft's set/reset and clock enable as its inputs and fields give them (R59). -/
def TuftCfg.sr (t : TuftCfg) (i : Bool) : Bool := t.srSrc && xor i t.srInv
def TuftCfg.ce (t : TuftCfg) (i : Bool) : Bool := !t.ceSrc || i

/-- The tussock before tussock `t` on the carry chain; none in the first tussock of a column (R57). -/
def carryBefore (t : Nat) : Option Nat :=
  if 0 < t % 32 then some (t - 1) else if 8 ≤ t / 32 then some (32 * (t / 32 - 8) + 31) else none

/-- A bit as the value of a net. -/
def netBit (b : Bool) : BitVec 16 := if b then 1 else 0

/-! ## Nets: the value of every signal, multiplexer output and carry of the fabric -/

inductive FabNet where
  | sig (m : Nat) (g : Sig)
  | mux (m : Nat) (x : Mux)
  | carry (m k : Nat)
deriving DecidableEq, Repr

/-- Unused codes of RSHIFT and OUT_SEL, under which a slice drives zero (R146). -/
def TrowelCfg.unused (c : TrowelCfg) : Bool :=
  if c.fallback then decide (55 < c.rshift.toNat) || c.outSel = 3 else decide (47 < c.rshift.toNat)

/-- Clamp to `n`-bit two's complement. -/
def clampS (n : Nat) (v : Int) : Int := max (-(2 ^ (n - 1))) (min (2 ^ (n - 1) - 1) v)

/-- The value lies outside `n`-bit two's complement. -/
def outS (n : Nat) (v : Int) : Bool := decide (v < -(2 ^ (n - 1)) ∨ 2 ^ (n - 1) - 1 < v)

/-- Rounding with the shift (R142): round half up. -/
def roundShift (v : Int) (sh : Nat) : Int := if sh = 0 then v else (v + 2 ^ (sh - 1)) / 2 ^ sh

/-- The output words and overflow flags from the accumulators (R142, R143, R146). -/
def TrowelCfg.output (c : TrowelCfg) (t : Trowel) : BitVec 16 × BitVec 16 × Bool × Bool :=
  let sh := c.rshift.toNat
  if c.fallback then
    if c.unused then (0, 0, false, false)
    else if c.outSel = 0 then
      let y := roundShift t.acc56.toInt sh
      let v := if c.outSat then clampS 24 y else sgn 24 (unsgn 24 y)
      (BitVec.ofInt 16 v, BitVec.ofInt 16 (v / 65536), outS 24 y, false)
    else if c.outSel = 1 then (t.acc56.extractLsb' 0 16, t.acc56.extractLsb' 16 16, false, false)
    else (t.acc56.extractLsb' 32 16, BitVec.ofInt 16 (t.acc56.extractLsb' 48 8).toInt, false, false)
  else
    if c.unused then (0, 0, false, false)
    else if c.outSel = 0 then
      let one := fun a : BitVec 48 =>
        let y := roundShift a.toInt sh
        (BitVec.ofInt 16 (if c.outSat then clampS 16 y else y), outS 16 y)
      ((one t.accRe).1, (one t.accIm).1, (one t.accRe).2, (one t.accIm).2)
    else
      let lo := 16 * (c.outSel.toNat - 1)
      (t.accRe.extractLsb' lo 16, t.accIm.extractLsb' lo 16, false, false)

/-- What a slice drives on its outputs: zero without a clock (R133) or under an unused code (R146). With OUT_STAGE 0 the output
follows the accumulator combinationally (R144). -/
def TrowelCfg.drives (c : TrowelCfg) (t : Trowel) (i : Nat) : BitVec 16 :=
  if c.clk = 0 then 0
  else if i = 4 then netBit t.aovf
  else if c.unused then 0
  else
    let o := if c.outStage then (t.rRe, t.rIm, t.ovfRe, t.ovfIm) else c.output t
    [o.1, o.2.1, netBit o.2.2.1, netBit o.2.2.2].getD i 0

section
variable (s : State) (e : FabNet → BitVec 16)

/-- A net of one bit, given the values of the nets it reads. -/
def netOn (n : FabNet) : Bool := (e n).getLsbD 0

/-- Word-in bit of a cell (R63). -/
def cellWord (m k : Nat) : Bool := (e (.mux m (.wordIn (k / 32)))).getLsbD (k % 16)

/-- L0-L5 of a cell: L0 takes the word-in bit when the half's WI_L0 is one (R62). -/
def State.cellL (m k : Nat) : BitVec 6 :=
  let tc := (s.mea m).live.pers.tussocks.get {} (k / 32)
  let l0 := if (if k % 32 < 16 then tc.wiLo else tc.wiHi) then cellWord e m k else netOn e (.mux m (.cell k 0))
  BitVec.ofNat 6 (pack ((bit l0, 0) :: [1, 2, 3, 4, 5].map fun i => (bit (netOn e (.mux m (.cell k i))), i)))

/-- Input X of a cell. -/
def cellX (m k : Nat) : Bool := netOn e (.mux m (.cell k 6))

/-- CI of a cell: the cell before it, or as CI_SEL and CI_SEL_HI choose (R57). -/
def State.cellCi (m k : Nat) : Bool :=
  let tc := (s.mea m).live.pers.tussocks.get {} (k / 32)
  if k % 32 = 0 then
    if tc.ciSel = 0 then false else if tc.ciSel = 1 then true else if tc.ciSel = 2 then cellX e m k
    else match carryBefore (k / 32) with | some t => netOn e (.carry m (32 * t + 31)) | none => false
  else if k % 32 = 16 ∧ tc.ciSelHi ≠ 3 then
    if tc.ciSelHi = 0 then false else if tc.ciSelHi = 1 then true else cellX e m k
  else netOn e (.carry m (k - 1))

/-- What one cell shows: FO, HO, S, CO, MA. -/
structure CellOuts where
  fo : Bool
  ho : Bool
  s : Bool
  co : Bool
  ma : Bool

def State.cellOuts (m k : Nat) : CellOuts :=
  let c := (s.mea m).live.pers.cells.get {} k
  let l := s.cellL e m k
  let ci := s.cellCi e m k
  { fo := c.fo l, ho := c.ho l, s := c.sum (c.fo l) ci, co := c.co (c.fo l) (c.ho l) (cellX e m k) ci, ma := c.ma (c.fo l) ci }

/-- A signal that a cell presents. -/
def State.cellSig (m k : Nat) (o : CellOut) : Bool :=
  let q := (s.mea m).ffs.get (false, false) k
  match o with
  | .ma => (s.cellOuts e m k).ma
  | .ho => ((s.mea m).live.pers.cells.get {} k).ho (s.cellL e m k)
  | .qa => q.1
  | .qb => q.2

/-- A multiplexer of the meadow selects the signal. -/
def Personality.takes (p : Personality) (g : Sig) : Bool := p.sel.ents.any fun e => e.2.code ≠ 0 && decide (e.2.src = g)

/-- The output word of a tussock: bit j of the half and the signal that WO_HALF and WO_SIG choose (R62, R63); zero while no
multiplexer uses the port (R64). -/
def State.wordOut (m t : Nat) : BitVec 16 :=
  let tc := (s.mea m).live.pers.tussocks.get {} t
  if ¬ (s.mea m).live.pers.takes (.wordOut t) then 0 else
  let o := if tc.woSig = 0 then CellOut.qa else if tc.woSig = 1 then .qb else if tc.woSig = 2 then .ma else .ho
  BitVec.ofNat 16 (pack ((List.range 16).map fun j => (bit (s.cellSig e m (32 * t + 16 * bit tc.woHalf + j) o), j)))

/-- The end of a wire: the last enabled register on it, else its multiplexer (R74). -/
def State.wireEnd (m : Nat) (w : Wire) : BitVec 16 :=
  let x := s.mea m
  if (x.live.pers.regAt w 1).en then x.wires.get 0 (w.point 1)
  else if (x.live.pers.regAt w 0).en then x.wires.get 0 (w.point 0)
  else e (.mux m (.wire w))

/-- What an outbound crossing of meadow `m` presents to the neighbour (R84, R85). -/
def State.crossOut (m : Nat) (c : Crossing) : BitVec 16 :=
  let x := s.mea m
  if x.masked then x.xout.get 0 c.key
  else if (x.live.pers.crossings.get {} c.key).en then x.xregs.get 0 c.key
  else e (.mux m (.cross c))

/-- A crossing that arrives at edge `c.dir` of meadow `m`: zero while `m` is masked (R85) and at the outer edges (R83). -/
def State.crossIn (m : Nat) (c : Crossing) : BitVec 16 :=
  if (s.mea m).masked then 0
  else match neighbour m c.dir with
    | some n => if c.n < edgeCount c.dir c.word then s.crossOut e n { c with dir := c.dir.back } else 0
    | none => 0

/-- A reset spine: 0, the fabric reset, or QA of cell n of tussock 0 of sward 0 (R82). An unused code drives zero. -/
def State.spine (m n : Nat) : Bool :=
  let x := s.mea m
  match (x.live.pers.rspSel.get 0 n).toNat with
  | 1 => x.frst
  | 2 => (x.ffs.get (false, false) n).1
  | _ => false

/-- The word that a skim port shows: its read data, or in queue mode the head word on the consumer port (R88, R120). -/
def State.skimShows (key : Nat) : BitVec 64 :=
  if (s.skimCfg (key / 2)).queueMode then
    if key % 2 = 1 then (match (s.qPort (key / 2)).dout with | some w => w.data | none => 0) else 0
  else (s.mem.skimPort.get {} key).dout

/-- The value of a signal. -/
def State.sigStep (m : Nat) (g : Sig) : BitVec 16 :=
  match g with
  | .zero => 0
  | .cell k o => netBit (s.cellSig e m k o)
  | .carryOut t hi => e (.carry m (32 * t + if hi then 31 else 15))
  | .wire w => s.wireEnd e m w
  | .cross c => s.crossIn e m c
  | .spine n => netBit (s.spine m n)
  | .wordOut t => s.wordOut e m t
  | .trowel w i => ((s.mea m).live.pers.trowels.get {} w).drives ((s.mea m).trowels.get {} w) i
  | .skim p l => (s.skimShows (128 * m + p)).extractLsb' (16 * l) 16
  | .screed p l => (s.mem.screedPort.get {} (12 * m + p)).dout.extractLsb' (16 * l) 16
  | .pin p i => match meadowPin m p with | some k => netBit (s.pinSig k i) | none => 0
  | .hard i => (s.mea m).hard.get 0 i

/-- A select field at a code that selects an input. -/
def Personality.selects (p : Personality) (x : Mux) : Bool :=
  let c := p.sel.get {} x.key
  c.code ≠ 0 && decide (c.code.toNat ≤ x.inputs)

/-- The output of a multiplexer: code 0 selects constant zero, codes 1 to n its inputs, and a code above n, which only an
upset brings, drives zero (R76, R78). -/
def State.muxStep (m : Nat) (x : Mux) : BitVec 16 :=
  let c := (s.mea m).live.pers.sel.get {} x.key
  if ¬ (s.mea m).live.pers.selects x ∨ ¬ c.src.reaches x then 0
  else if x.word then e (.sig m c.src) else e (.sig m c.src) &&& 1

/-- The value of a net from those it reads. -/
def State.netStep : FabNet → BitVec 16
  | .sig m g => s.sigStep e m g
  | .mux m x => s.muxStep e m x
  | .carry m k => netBit (s.cellOuts e m k).co

end

/-- The value of a net. A path through more nets than a heath has runs in a loop without a register: which value it holds is
free (log 4). -/
def State.netDeep (s : State) : Nat → FabNet → BitVec 16
  | 0, _ => (Config.freeValue s.free).setWidth 16
  | n + 1, x => s.netStep (s.netDeep n) x

/-- More than the nets of a heath. -/
def netCount : Nat := 2 ^ 28

def State.fabNet (s : State) (x : FabNet) : BitVec 16 := s.netDeep netCount x
def State.muxBit (s : State) (m : Nat) (x : Mux) : Bool := (s.fabNet (.mux m x)).getLsbD 0

/-! ## What a pin drives (R478) -/

/-- The level that the design drives on a pin, when its output is enabled: a register of the I/O cell or the routing (R476). -/
def State.cellOut (s : State) (k : Nat) : Option Bool :=
  let c := s.pinCfg k
  let r := (s.pin k).reg
  let m := pinMeadow k
  let p := k % 48
  let direct := c.clk = 0 || c.oreg = 0
  let oe := if direct then s.muxBit m (.pin p 2) else r.oe
  let v := if direct then s.muxBit m (.pin p 0) else if c.oreg = 2 ∧ r.half then r.o1 else r.o0
  if c.std ≠ 0 ∧ oe then some v else none

/-- LVDS transmits with the bank at 1.8 V only (R472), as it was last measured, within 5 % (R473; log 32). -/
def State.lvdsSends (s : State) (k : Nat) : Bool := decide (1710 ≤ (s.bank (k / 48)).mv.toNat ∧ (s.bank (k / 48)).mv.toNat ≤ 1890)

/-- The level that the design drives on a pin: its cell's, or that of its leg of an LVDS pair, whose legs INV swaps (R472, R475). -/
def State.pinOut (s : State) (k : Nat) : Option Bool :=
  match s.pairP k with
  | some p => if s.lvdsSends k then (s.cellOut p).map fun v => xor (xor v (s.pinCfg p).swaps) (k % 2 = 1) else none
  | none => if (s.pinCfg k).std = 0xB then none else s.cellOut k

/-- The heritage controller that drives pin `k`, and what it drives there: 0 TX, SCLK or MOSI, 1 CS_N, 2 an open-drain line
(R482). -/
def hbDriver (k : Nat) : Option (Nat × Nat) :=
  if rng k 32 39 ∧ k % 2 = 0 then some ((k - 32) / 2, 0)
  else if rng k 40 47 ∧ k % 4 ≠ 2 then some (4 + (k - 40) / 4, if k % 4 = 3 then 1 else 0)
  else if rng k 80 83 then some (6 + (k - 80) / 2, 2)
  else none

/-- What the controller that HB_PINS connects drives on pin `k`, whatever the fabric configures there (R482): CS_N as CTRL says;
an open-drain line is released; the level of TX, SCLK and MOSI at a moment no rule gives: free (log 26). -/
def State.hbOut (s : State) (k : Nat) : Option (Option Bool) :=
  match hbDriver k with
  | some (c, role) =>
    if ¬ (s.mea 47).live.pers.hbPins.getLsbD c then none
    else some (match role with
      | 0 => some ((Config.freeValue s.free).getLsbD (k % 64))
      | 1 => some (!(s.serial c).ctrl.getLsbD 18)
      | _ => none)
  | none => none

/-- A pin under design control. An unused pin is high-impedance without a pull (R475). -/
def State.pinDesign (s : State) (k : Nat) : PinDrive :=
  let c := s.pinCfg k
  { out := (s.hbOut k).getD (s.pinOut k), pull := if c.std = 0 then 0 else c.pull, std := c.std }

/-- Pull-up of R475. -/
def pullUp : BitVec 2 := 1

/-- A boundary-scan instruction from EXTEST to EXTEST_TRAIN is current (R455). -/
def State.testing (s : State) : Bool :=
  match s.dbg.ir with | .extest | .clamp | .highz | .extestPulse | .extestTrain => true | _ => false

/-- What a pin drives and pulls: the first row of R478 that applies. Under boundary scan the level is that of the pin's scan cells
(log 28). -/
def State.pinDrive (s : State) (k : Nat) : PinDrive :=
  let c := s.pinDesign k
  if s.pwr.mode = .lockdown then {}
  else if s.testing then
    let (v, en) := Config.scanCell k
    { c with out := if s.dbg.ir ≠ .highz ∧ s.dbg.bsr.getD en false then some (s.dbg.bsr.getD v false) else none }
  else if s.pwr.down.any fun r => r = .vccio (Fin.ofNat 16 (k / 48)) then {}
  else if s.pwr.mode = .boot ∨ s.pwr.mode = .load then { pull := if s.pwr.straps.pull then pullUp else 0 }
  else if (s.pin k).fault.isSome then { c with out := none }
  else if (s.mea (pinMeadow k)).masked ∨ s.pwr.mode = .hold then (s.pin k).held
  else c

/-- The pins of a meadow hold what they drive (R478). -/
def State.holdPins (s : State) (m : Nat) : State :=
  each ((List.range 48).filterMap (meadowPin m)) (fun k t => t.setPin k { t.pin k with held := s.pinDrive k }) s

/-! ## Frames (R61, R77, R363) -/

/-- Options of DRIVE by standard (R475); an unused pin has no options to exceed. -/
def driveOptions (std : BitVec 4) : Nat := [8, 4, 4, 4, 2, 3, 3, 5, 5, 5, 5, 2].getD std.toNat 0

/-- Clock codes 0xD-0xF are unused (R80). -/
def clkUnused (c : BitVec 4) : Bool := decide (12 < c.toNat)

/-- The fields of an I/O cell hold an unused code that needs no other field to show (R475). -/
def IoCfg.badCode (c : IoCfg) : Bool := decide (11 < c.std.toNat) || clkUnused c.clk || c.ireg = 3 || c.oreg = 3
/-- An unused code, DRIVE beyond the standard's options among them. -/
def IoCfg.unused (c : IoCfg) : Bool := c.badCode || decide (driveOptions c.std ≤ c.drive.toNat)

/-- The fields of a skim block hold an unused code (R87, R106). DESIGN CHOICE (log 5): it refuses the image also in a field that
the block's mode ignores. -/
def SkimCfg.badCode (c : SkimCfg) : Bool :=
  c.a.rdw = 3 || c.b.rdw = 3 || clkUnused c.a.clk || clkUnused c.b.clk || c.qwWidth = 3 ||
    (c.q.ents.any fun e => e.2.cons = 3 || decide (256 < e.2.cap.toNat))

/-- What R87 and R106 refuse: an unused code, a grant above its queue's capacity, capacities above the block's. -/
def SkimCfg.unused (c : SkimCfg) : Bool :=
  let cap := [1024 * 4, 1024 * 2, 1024, 0].getD c.qwWidth.toNat 0
  c.badCode || (c.queueMode && (c.q.ents.any fun e => decide (e.2.cap < e.2.fcred)) ||
    c.queueMode && decide (cap < ((c.q.ents.map fun e => 16 * e.2.cap.toNat).sum)))

/-- The fields of a screed block hold an unused code (R92). DESIGN CHOICE (log 5): one in B_CLK_SEL refuses the image also with
B_SRC 1, which ignores the field. -/
def ScreedCfg.unused (c : ScreedCfg) : Bool := c.a.width = 3 || c.b.width = 3 || clkUnused c.a.clk || clkUnused c.b.clk

/-- A personality holds an unused code in a field that alone shows it (R77, R80, R82, R84, R87, R92, R106, R132, R211, R475). -/
def Personality.badCode (p : Personality) : Bool :=
  (p.sel.ents.any fun e => decide (muxInputs e.1 < e.2.code.toNat)) ||
  (p.tufts.ents.any fun e => clkUnused e.2.clkSel) ||
  (p.rspSel.ents.any fun e => e.2 = 3) ||
  (p.crossings.ents.any fun e => e.2.mask = 3) ||
  (p.skims.ents.any fun e => e.2.badCode) ||
  (p.screeds.ents.any fun e => e.2.unused) ||
  (p.trowels.ents.any fun e => decide (55 < e.2.rshift.toNat) || clkUnused e.2.clk) ||
  (p.ios.ents.any fun e => e.2.badCode) ||
  clkUnused p.gateClk

/-- SWAP_CLK is one of 0x5 to 0xC (R383). -/
def Personality.swapClkOk (p : Personality) : Bool := decide (5 ≤ p.swapClk.toNat ∧ p.swapClk.toNat ≤ 12)

/-- What the loader refuses in the whole personality that an image gives a meadow: an unused code, also one that another field
decides (R106, R132, R475), and a SWAP_CLK other than 0x5 to 0xC (R383). -/
def Personality.refused (p : Personality) : Bool :=
  p.badCode || (p.skims.ents.any fun e => e.2.unused) || (p.trowels.ents.any fun e => e.2.unused) ||
    (p.ios.ents.any fun e => e.2.unused) || !p.swapClkOk

/-- The frames of a plane other than zeros. -/
def frameList (f : Nat) (d : BitVec 4096) : List (Nat × BitVec 4096) := if d = 0 then [] else [(f, d)]

/-- A frame that the loader refuses before it writes it (R77): what two fields together show waits for the whole plane. -/
def frameRefused (f : Nat) (d : BitVec 4096) : Bool := (Config.decodeFrames (frameList f d)).badCode

/-- The plane means what its frames hold. -/
def Plane.decode (p : Plane) : Plane := { p with pers := Config.decodeFrames p.frames.ents }

/-- Frame `f` of a plane takes the data `d`, upset bits in it gone; the plane means what its frames hold (R78, R390). -/
def Plane.rewrite (p : Plane) (f : Nat) (d : BitVec 4096) : Plane :=
  let q := { p with frames := p.frames.set 0 f d, flips := p.flips.set 0 f 0, checks := p.checks.set 0 f 0 }
  if p.frames.get 0 f = d then q else q.decode

/-- An upset inverts data bits of a frame of a plane from this moment on (R78). -/
def Plane.upset (p : Plane) (f : Nat) (bits : BitVec 4096) : Plane :=
  ({ p with frames := p.frames.set 0 f (p.frames.get 0 f ^^^ bits), flips := p.flips.set 0 f (p.flips.get 0 f ^^^ bits) }).decode

/-- An upset inverts check bits of a frame, or leaves its table entry with an error (R376, R381): the design sees neither. -/
def Plane.upsetChecks (p : Plane) (f : Nat) (checks : BitVec 512) (entry : Bool) : Plane :=
  let p := { p with checks := p.checks.set 0 f (p.checks.get 0 f ^^^ checks) }
  if entry then { p with sigs := p.sigs.upd {} f fun e => { e with bad := true } } else p

end Sys2Proof.Machine
end

