-- ==== Sys2Proof/Machine/Fabric.lean ====
section
/-! DEFINITION. Flip-flops, wire and I/O registers at a fabric clock edge (spec/03, 04, 23) and the trowel slice (spec/07). -/

namespace Sys2Proof.Machine

/-! ## Flip-flops (R54, R55, R67) -/

/-- The next value of a flip-flop by the ranks of R54 below the global hold: `edge` an active clock edge. -/
def ffNext (edge srUse async sr ceUse ce resval q d : Bool) : Bool :=
  if srUse && async && sr then resval
  else if edge && srUse && !async && sr then resval
  else if edge && ceUse && !ce then q
  else if edge then d
  else q

/-- Set/reset and clock enable of a tuft: one routing input each (R59, R60). -/
def State.tuftSr (s : State) (m u : Nat) : Bool := ((s.mea m).live.pers.tufts.get {} u).sr (s.muxBit m (.sr u))
def State.tuftCe (s : State) (m u : Nat) : Bool := ((s.mea m).live.pers.tufts.get {} u).ce (s.muxBit m (.ce u))

/-- Flip-flops A and B of cell `k` of meadow `m` after an instant at which its tuft meets an active edge or none. -/
def State.ffAfter (s : State) (m k : Nat) (edge : Bool) : Bool × Bool :=
  let x := s.mea m
  let c := x.live.pers.cells.get {} k
  let u := x.live.pers.tufts.get {} (k / 8)
  let o := s.cellOuts s.fabNet m k
  let q := x.ffs.get (false, false) k
  let sr := s.tuftSr m (k / 8)
  let ce := s.tuftCe m (k / 8)
  let xin := cellX s.fabNet m k
  let w := cellWord s.fabNet m k
  (ffNext edge c.srUse.1 u.srAsync sr c.ceUse.1 ce c.resval.1 q.1 (c.dA o.fo o.s xin w),
   ffNext edge c.srUse.2 u.srAsync sr c.ceUse.2 ce c.resval.2 q.2 (c.dB o.ho xin o.co w))

/-- The cells of the tufts that `p` picks take their flip-flops' next values. -/
def State.ffStep (s : State) (m : Nat) (p : TuftCfg → Bool) (edge : Bool) : Tab (Bool × Bool) :=
  let x := s.mea m
  let us := (x.live.pers.tufts.ents.filter fun e => p e.2).map (·.1)
  each us (fun u t => each (List.range 8) (fun i t => t.set (false, false) (8 * u + i) (s.ffAfter m (8 * u + i) edge)) t) x.ffs

/-- The meadows of a heath whose units are not all at their defaults. -/
def State.heathMeadows (s : State) (h : Nat) : List Nat := s.fab.keys.filter fun m => m / 48 = h

/-- Asynchronous set/reset acts at once in every meadow of a heath (R54). -/
def State.settleOnce (s : State) (h : Nat) : State :=
  each (s.heathMeadows h) (fun m t => t.setMea m { s.mea m with ffs := s.ffStep m (·.srAsync) false }) s

def State.settleN (s : State) (h : Nat) : Nat → State
  | 0 => s
  | n + 1 => (s.settleOnce h).settleN h n

/-- Flip-flops that an asynchronous set/reset can force in a heath. -/
def State.asyncCells (s : State) (h : Nat) : Nat :=
  ((s.heathMeadows h).map fun m => 8 * ((s.mea m).live.pers.tufts.ents.filter fun e => e.2.srAsync).length).sum

/-- Asynchronous set/resets act until none changes a flip-flop any more: each forces towards RESVAL, so as many rounds as
there are flip-flops suffice. The global hold stands above them (R54). -/
def State.settleFab (s : State) (h : Nat) : State :=
  -- in HOLD flip-flops keep their values (R68)
  if s.pwr.ghold ∨ s.pwr.mode = .hold then s else s.settleN h (2 * s.asyncCells h)

/-- Every heath settles. -/
def State.settleAll (s : State) : State := each (List.range 4) (fun h s => s.settleFab h) s

/-! ## I/O registers (R474, R476) -/

/-- The registers of an I/O cell at an edge of its clock: they load at the rising edge, and the falling edge captures the DDR
input half and changes a DDR output to its second half (R476). -/
def IoReg.load (r : IoReg) (c : IoCfg) (rise o0 o1 oe pad : Bool) : IoReg :=
  if ¬ rise then { r with fall := pad, half := true }
  else
    let r := { r with half := false }
    let r := if c.ireg = 1 then { r with i0 := pad } else if c.ireg = 2 then { r with i0 := pad, i1 := r.fall } else r
    if c.oreg = 1 then { r with o0 := o0, oe := oe } else if c.oreg = 2 then { r with o0 := o0, o1 := o1, oe := oe } else r

/-! ## FABRIC_CLOCK_EDGE -/

/-- The running clock networks of a meadow that carry global clock `g` (R79, R80). -/
def State.netsOf (s : State) (m g : Nat) : List (BitVec 4) :=
  ((List.range 12).map fun i => BitVec.ofNat 4 (i + 1)).filter fun n => s.netClock m n = g && s.netRuns m n

/-- Wire registers load at every rising edge of their regional clock, which is network REG_CLK + 1 (R74). The end register
takes the wire behind the midpoint register. -/
def State.wireRegs (s : State) (m : Nat) (nets : List (BitVec 4)) : Tab (BitVec 16) :=
  let x := s.mea m
  each (x.live.pers.wires.ents.filter fun e => e.2.en && nets.contains (BitVec.ofNat 4 (e.2.clk.toNat + 1))) (fun e t =>
    match wireOf (e.1 / 2) with
    | some w =>
      if (if e.1 % 2 = 0 then w.hasMid else w.hasEnd) then
        t.set 0 e.1 (if e.1 % 2 = 1 ∧ (x.live.pers.regAt w 0).en then x.wires.get 0 (w.point 0) else s.fabNet (.mux m (.wire w)))
      else t
    | none => t) x.wires

/-- Boundary registers load as wire registers do (R84). -/
def State.crossRegs (s : State) (m : Nat) (nets : List (BitVec 4)) : Tab (BitVec 16) :=
  let x := s.mea m
  each (x.live.pers.crossed.filter fun c =>
      let r := x.live.pers.crossings.get {} c.key
      r.en && nets.contains (BitVec.ofNat 4 (r.clk.toNat + 1))) (fun c t =>
    t.set 0 c.key (s.fabNet (.mux m (.cross c)))) x.xregs

/-- An I/O cell at an edge of its clock. In a masked meadow the pin is held (R478). -/
def State.pinEdge (s : State) (m : Nat) (nets : List (BitVec 4)) (rise : Bool) (t : State) : State :=
  each (s.mea m).live.pers.ios.ents (fun e t =>
    match meadowPin m e.1 with
    | some k =>
      if nets.contains e.2.clk ∧ ¬ (s.mea m).masked then
        t.setPin k { t.pin k with
          reg := (s.pin k).reg.load e.2 rise (s.muxBit m (.pin e.1 0)) (s.muxBit m (.pin e.1 1)) (s.muxBit m (.pin e.1 2)) (s.padIn k) }
      else t
    | none => t) t

/-- The registers of one meadow at an edge of global clock `g`, each from the values before the edge. -/
def State.meadowEdge (s : State) (g : Nat) (rise : Bool) (m : Nat) (t : State) : State :=
  let x := s.mea m
  let nets := s.netsOf m g
  let y := { x with
    ffs := s.ffStep m (fun u => nets.contains u.clkSel && u.clkInv != rise) true
    wires := if rise then s.wireRegs m nets else x.wires
    xregs := if rise then s.crossRegs m nets else x.xregs }
  s.pinEdge m nets rise (t.setMea m y)

/-- The plane of a meadow, the undercoat for `under`. -/
def Meadow.plane (x : Meadow) (under : Bool) : Plane := if under then x.under else x.live
/-- Slices without a clock hold zero in every register (R133). -/
def Meadow.restSlices (x : Meadow) : Meadow :=
  { x with trowels := x.trowels.drop fun w => (x.live.pers.trowels.get {} w).clk = 0 }

def Meadow.setPlane (x : Meadow) (under : Bool) (p : Plane) : Meadow :=
  if under then { x with under := p } else ({ x with live := p } : Meadow).restSlices

/-- What comes to the fabric from outside its routing takes effect at once (R61, R474). -/
def State.fabIn (s : State) : FabIn → State
  | .pad b p v => s.setPin (48 * b + p) { s.pin (48 * b + p) with pad := v }
  | .hard m i v => s.updMea m fun x => { x with hard := x.hard.set 0 i v }

/-- What has come from outside since the edge before takes effect at once, with what it forces (R54). -/
def State.takeIns (s : State) (ins : List FabIn) : State := (each ins (fun i s => s.fabIn i) s).settleAll

/-- An upset acts from the moment it happens (R78). -/
def State.frameUpset (s : State) (u : FrameUpset) : State :=
  s.updMea u.m fun x => x.setPlane u.under (((x.plane u.under).upset u.f u.bits).upsetChecks u.f u.checks u.entry)

/-- An edge of a global clock: every register of the heath that a running network clocks from it loads at once. -/
def State.clockEdge (s : State) (g : Nat) (rise : Bool) : State :=
  { each (s.heathMeadows (g / 16)) (fun m t => s.meadowEdge g rise m t) s with free := s.free + 1 }

/-- FABRIC_CLOCK_EDGE: an edge of a global clock of a heath, with the upsets and what has come from outside since the edge before
it. The units that take the same edge in rows of their own are given it before (log 4). -/
def execFabricClockEdge (g : GclkId) (rise : Bool) (ins : List FabIn) (ups : List FrameUpset) (s : State) : Res :=
  let s := (each ups (fun u s => s.frameUpset u) s).takeIns ins
  .next ((s.clockEdge g rise).settleAll)

/-- The I/O registers of a pin meet active edges: its cell selects a clock, whose network runs, in a meadow that is not masked
(R475, R477, R478). -/
def State.ioClocked (s : State) (k : Nat) : Bool :=
  let m := pinMeadow k
  decide ((s.pinCfg k).clk ≠ 0) && s.netRuns m (s.pinCfg k).clk && !(s.mea m).masked

/-- IO_DELAY_STEP: a pulse at an active I/O register edge moves both delay lines of the pin by one tap, saturating; both pulses at
once do nothing (R477). -/
def execIoDelayStep (b : BankId) (p : PinId) (inc dec : Bool) (s : State) : Res :=
  let k := 48 * b.val + p.val
  let r := (s.pin k).reg
  if s.ioClocked k ∧ inc ≠ dec then
    let mv := fun t : BitVec 9 => if inc then (if t = 511 then t else t + 1) else (if t = 0 then t else t - 1)
    .next (s.setPin k { s.pin k with reg := { r with itap := mv r.itap, otap := mv r.otap } }).settleAll
  else .next s

/-! ## Trowel slice (R136-R146) -/

/-- Two's-complement value of a word pair in fall-back mode: [7:0] of the imaginary word above the real word (R136). -/
def fb24 (re im : BitVec 16) : Int := sgn 24 (im.toNat % 256 * 65536 + re.toNat)

/-- The pre-adder on operands of `n` bits (R137). DESIGN CHOICE (log 4): the one halved result that does not fit, B - E at the two
ends of the range, which R137 takes not to exist, goes into the product as it is. -/
def preAdd (n : Nat) (half : Bool) (pre : BitVec 2) (b e : Int) : Int :=
  let fit := fun v : Int => if half then (v + 1) / 2 else clampS n v
  if pre = 0 then b else if pre = 1 then fit (b + e) else if pre = 2 then fit (b - e) else e

/-- The product M (R138). -/
def TrowelCfg.product (c : TrowelCfg) (o : TrowelOps) : TrowelProd :=
  if c.fallback then
    let m := fb24 o.are o.aim * preAdd 24 c.preHalf o.pre (fb24 o.bre o.bim) (fb24 o.ere o.eim)
    { mre := m, mim := 0, op := o.op, ksel := o.ksel }
  else
    let br := preAdd 16 c.preHalf o.pre o.bre.toInt o.ere.toInt
    let bi := preAdd 16 c.preHalf o.pre o.bim.toInt o.eim.toInt
    let ar := o.are.toInt
    let ai := o.aim.toInt
    { mre := if o.conj then ar * br + ai * bi else ar * br - ai * bi
      mim := if o.conj then ai * br - ar * bi else ai * br + ar * bi
      op := o.op, ksel := o.ksel }

/-- The accumulator operation on base K and product M (R139). -/
def accOp (op : BitVec 2) (k m : Int) : Int := if op = 0 then k + m else if op = 1 then k - m else if op = 2 then k else m - k

/-- The base K from the own accumulator and chain_in (R139). -/
def accBase (ksel : BitVec 2) (own chain : Int) : Int :=
  if ksel = 0 then own else if ksel = 1 then 0 else if ksel = 2 then chain else own / 65536

/-- Clamp or wrap to `n` bits (R140). -/
def accFit (n : Nat) (sat : Bool) (v : Int) : BitVec n := BitVec.ofInt n (if sat then clampS n v else v)

/-- One enabled edge of a slice (R144): `chain` is chain_in, real and imaginary (or the 56-bit accumulator) (R141). -/
def Trowel.edge (t : Trowel) (c : TrowelCfg) (o : TrowelOps) (chain : Int × Int) : Trowel :=
  let i := if c.inStage then t.inReg else o
  let prod := c.product i
  let m := if c.mulStage then t.mulReg else prod
  let t1 :=
    if c.fallback then
      let v := accOp m.op (accBase m.ksel t.acc56.toInt chain.1) m.mre
      { t with acc56 := accFit 56 c.accSat v, aovf := outS 56 v }
    else
      let re := accOp m.op (accBase m.ksel t.accRe.toInt chain.1) m.mre
      let im := accOp m.op (accBase m.ksel t.accIm.toInt chain.2) m.mim
      { t with accRe := accFit 48 c.accSat re, accIm := accFit 48 c.accSat im, aovf := outS 48 re || outS 48 im }
  let out := c.output (if c.outStage then t else t1)
  { t1 with
    inReg := if c.inStage then o else t.inReg, mulReg := if c.mulStage then prod else t.mulReg
    rRe := out.1, rIm := out.2.1, ovfRe := out.2.2.1, ovfIm := out.2.2.2 }

/-- chain_in of a sward's slice: the accumulator of sward s - 8, zero for swards 0-7 (R141). What a fall-back slice takes
from a main-mode slice no rule states: a free value (log 10). -/
def State.chainIn (s : State) (m sw : Nat) : (Int × Int) × State :=
  if sw < 8 ∨ ((s.mea m).live.pers.trowels.get {} (sw - 8)).clk = 0 then ((0, 0), s)
  else
    let p := (s.mea m).live.pers
    let below := (s.mea m).trowels.get {} (sw - 8)
    let fbBelow := (p.trowels.get {} (sw - 8)).fallback
    if (p.trowels.get {} sw).fallback then
      if fbBelow then ((below.acc56.toInt, 0), s)
      else
        let (v, s) := s.draw
        ((sgn 56 v.toNat, 0), s)
    else if fbBelow then (((below.acc56.setWidth 48).toInt, 0), s)
    else ((below.accRe.toInt, below.accIm.toInt), s)

/-- The operands and controls of a slice: what its multiplexers bring (R72, R135). -/
def State.trowelOps (s : State) (m sw : Nat) : TrowelOps :=
  let w := fun k => s.fabNet (.mux m (.trowelWord sw k))
  let b := fun k => s.muxBit m (.trowelBit sw k)
  let two := fun k => BitVec.ofNat 2 (bit (b k) + 2 * bit (b (k + 1)))
  { are := w 0, aim := w 1, bre := w 2, bim := w 3, ere := w 4, eim := w 5, pre := two 0, conj := b 2, op := two 3, ksel := two 5 }

/-- tw_en. -/
def State.trowelEn (s : State) (m sw : Nat) : Bool := s.muxBit m (.trowelBit sw 7)

/-- TROWEL_SLICE_UPDATE: an active edge of a slice's clock, with what has come from outside since its last edge. With tw_en low no
register changes; with TW_CLK_SEL 0 the slice holds zero (R133, R144). DESIGN CHOICE (log 4): the slices of a chain take an edge
they share from the highest sward down, so that each finds its neighbour below as it stood before that edge (R141). -/
def execTrowelSliceUpdate (m : MeadowId) (sw : Fin 64) (ins : List FabIn) (s : State) : Res :=
  let s := s.takeIns ins
  let c := (s.mea m).live.pers.trowels.get {} sw.val
  let o := s.trowelOps m sw
  if s.netRuns m c.clk ∧ s.trowelEn m sw then
    let (chain, s) := s.chainIn m sw
    .next (s.updMea m fun x => { x with trowels := x.trowels.upd {} sw.val fun t => t.edge c o chain }).settleAll
  else .next s

end Sys2Proof.Machine
end

