-- ==== Sys2Proof/Machine/Memories.lean ====
section
/-! DEFINITION. Skim and screed memories, their ports, the screed window, memory columns (spec/05_skim_and_screed_memories.md). -/

namespace Sys2Proof.Machine

/-- A 16-bit lane at byte address `a`. -/
def Mem.lane (m : Mem) (a : Nat) : BitVec 16 := m.read (a + 1) ++ m.read a
def Mem.setLane (m : Mem) (a : Nat) (v : BitVec 16) : Mem := (m.write a (v.setWidth 8)).write (a + 1) (v.extractLsb' 8 8)

/-- Lanes as one word, lane 0 lowest. -/
def lanesWord : List (BitVec 16) → BitVec 64
  | [] => 0
  | l :: r => ((lanesWord r) <<< 16) ||| l.setWidth 64

/-- Lane `i` of a word. -/
def wordLane (v : BitVec 64) (i : Nat) : BitVec 16 := v.extractLsb' (16 * i) 16

/-! ## Skim ports in memory mode (R87-R91) -/

/-- Lanes of a port: width code 0-3 is 1, 2, 3, 4 lanes (R87). -/
def skimLanes (w : BitVec 2) : Nat := w.toNat + 1
/-- Row and first lane of a word address (R88). -/
def skimPlace (w : BitVec 2) (a : Nat) : Nat × Nat :=
  if w = 0 then (a % 4096 / 4, a % 4) else if w = 1 then (a % 2048 / 2, 2 * (a % 2)) else (a % 1024, 0)

/-- What one port does at an enabled edge: row, first lane, lanes. -/
structure PortOp where
  cfg : PortCfg
  inp : PortIn
  /-- the write data, as the port's word-in multiplexers bring it (R72, R88) -/
  din : BitVec 64
  row : Nat
  lane : Nat
  n : Nat

def portOp (c : PortCfg) (din : BitVec 64) (p : PortIn) : PortOp :=
  let pl := skimPlace c.width p.addr.toNat
  { cfg := c, inp := p, din := din, row := pl.1, lane := pl.2, n := skimLanes c.width }

/-- The port writes lane `l` of row `r`: the data. -/
def PortOp.writes (o : PortOp) (r l : Nat) : Option (BitVec 16) :=
  if o.inp.en ∧ r = o.row ∧ o.lane ≤ l ∧ l < o.lane + o.n ∧ o.inp.we.getLsbD (l - o.lane) then
    some (wordLane o.din (l - o.lane))
  else none

/-- skx_din or q_din of a port of skim block `k`, and scx_din of a port of screed block `k`: lane by lane what its word-in
multiplexers bring (R72, R88, R93). -/
def State.skimDin (s : State) (k x : Nat) : BitVec 64 :=
  lanesWord ((List.range 4).map fun l => s.fabNet (.mux (k / 64) (.skimWord (2 * (k % 64) + x) l)))
def State.screedDin (s : State) (k x : Nat) : BitVec 64 :=
  lanesWord ((List.range 4).map fun l => s.fabNet (.mux (k / 6) (.screedWord (2 * (k % 6) + x) l)))

/-- What has come from outside by an edge that one or both ports take. -/
def State.takePorts (s : State) (a b : Option PortIn) : State :=
  s.takeIns ((a.map (·.ins)).getD [] ++ (b.map (·.ins)).getD [])

/-- Byte address and mark key of a skim lane. -/
def skimAddr (k r l : Nat) : Nat := 8192 * k + 8 * r + 2 * l
def skimKey (k r l : Nat) : Nat := 4096 * k + 4 * r + l

/-- The stored lane and whether it holds an uncorrectable error. -/
def State.skimLane (s : State) (k r l : Nat) : BitVec 16 × Bool :=
  (s.mem.skim.lane (skimAddr k r l), s.mem.skimMark.get .ok (skimKey k r l) = .bad)

def State.setSkimLane (s : State) (k r l : Nat) (v : BitVec 16) : State :=
  { s with mem.skim := s.mem.skim.setLane (skimAddr k r l) v, mem.skimMark := s.mem.skimMark.set .ok (skimKey k r l) .ok }

/-- The contents of lane `l` for a read of `o`: the other port's write in the same instant counts as not made, or with
different clocks before or after as `after` says (R91). -/
def State.skimStored (s : State) (k : Nat) (o : PortOp) (other : Option PortOp) (after : Bool) (l : Nat) : BitVec 16 × Bool :=
  match other.bind fun q => q.writes o.row l with
  | some d => if after then (d, false) else s.skimLane k o.row l
  | none => s.skimLane k o.row l

/-- What a read of `o` shows on its lane `i`: its own write by x_RDW, else the contents (R90). `old` is the read data held. -/
def State.skimRead (s : State) (k : Nat) (o : PortOp) (other : Option PortOp) (after : Bool) (old : BitVec 64) (i : Nat) :
    BitVec 16 × Bool :=
  let l := o.lane + i
  if o.n ≤ i then (0, false)
  else
    match o.writes o.row l with
    | some d =>
      if o.cfg.rdw = 1 then (d, false) else if o.cfg.rdw = 2 then (wordLane old i, false) else s.skimStored k o other after l
    | none => s.skimStored k o other after l

/-- What shows after an edge at which `d` leaves the pipe: without a word the data holds, and the error lasts one cycle. -/
def MemPort.show (p : MemPort) (d : Option (BitVec 64 × Bool)) : MemPort :=
  match d with
  | some d => { p with dout := d.1, err := d.2 }
  | none => { p with err := false }

/-- A skim port's read data register at an active edge: new data after this edge, or after the next one with x_OREG (R89). -/
def MemPort.load (p : MemPort) (oreg : Bool) (new : Option (BitVec 64 × Bool)) : MemPort :=
  if oreg then
    { p.show p.pipe with pipe := new }
  else { p.show new with pipe := none }

/-- A screed port's at an active edge: data shows after the second edge that follows the read's (R93). -/
def MemPort.loadScreed (p : MemPort) (new : Option (BitVec 64 × Bool)) : MemPort :=
  { p.show p.pipe2 with pipe2 := p.pipe, pipe := new }

/-- The read data a port held before this edge. -/
def MemPort.held (p : MemPort) : BitVec 64 := match p.pipe with | some d => d.1 | none => p.dout

def State.memPort (s : State) (key : Nat) : MemPort := s.mem.skimPort.get {} key

/-- Write one port's enabled lanes. -/
def State.skimWrite (s : State) (k : Nat) (o : PortOp) : State :=
  each (List.range o.n) (fun i s =>
    match o.writes o.row (o.lane + i) with
    | some d => s.setSkimLane k o.row (o.lane + i) d
    | none => s) s

/-- Take a port's edge into its output registers; uncorrectable lanes are reported (R97). -/
def State.skimOut (s : State) (k key : Nat) (o : PortOp) (lanes : List (BitVec 16 × Bool)) : State :=
  let new := if o.inp.en then some (lanesWord (lanes.map (·.1)), lanes.any (·.2)) else none
  let s := { s with mem.skimPort := s.mem.skimPort.upd {} key fun p => p.load o.cfg.oreg new }
  if o.inp.en then
    each ((lanes.zipIdx).filter (·.1.2)) (fun e s => s.memUncorrectable 0 k o.row (o.lane + e.2)) s
  else s

/-- The lanes of which a write-write collision of two clocks leaves port B's data: the free bits say which (R91). -/
def State.skimCollide (s : State) (k : Nat) (a b : PortOp) (v : BitVec 64) : State :=
  each (List.range 4) (fun l s =>
    match a.writes a.row l, b.writes a.row l with
    | some _, some d => if v.getLsbD l then s.setSkimLane k a.row l d else s
    | _, _ => s) s

/-- The ports of a skim block run on one clock: the networks of both carry one global clock (R79, R91). -/
def State.oneClock (s : State) (m : Nat) (a b : BitVec 4) : Bool := decide (s.netClock m a = s.netClock m b)

/-- SKIM_PORT_ACCESS: active edges of one or both ports of a block in memory mode at one instant. Outside ON reads return
zero and writes are dropped (R99). Which port's data a write-write collision of two clocks leaves in a lane, and whether a
read sees the other clock's write there, are free (R91). -/
def execSkimPortAccess (k : SkimId) (a b : Option PortIn) (s : State) : Res :=
  let s := s.takePorts a b
  let m := k.val / 64
  let c := s.skimCfg k
  let use := fun (pc : PortCfg) (x : Nat) (p : Option PortIn) => if s.netRuns m pc.clk then p.map (portOp pc (s.skimDin k x)) else none
  let oa := use c.a 0 a
  let ob := use c.b 1 b
  if c.queueMode then .next s
  else if (s.mea m).col ≠ .on then
    let zero := fun (key : Nat) (o : Option PortOp) (s : State) =>
      match o with
      | some o => s.skimOut k key { o with inp := { o.inp with we := 0 } } (List.replicate 4 (0, false))
      | none => s
    .next (zero (2 * k.val + 1) ob (zero (2 * k.val) oa s)).settleAll
  else
    let two := oa.isSome && ob.isSome && !s.oneClock m c.a.clk c.b.clk
    let (v, s) := if two then s.draw else (0, s)
    let rd := fun (key : Nat) (o : Option PortOp) (other : Option PortOp) (after : Nat → Bool) =>
      o.map fun o => (List.range 4).map fun i => s.skimRead k o other (after (o.lane + i)) (s.memPort key).held i
    let ra := rd (2 * k.val) oa ob (fun l => two && v.getLsbD (4 + l))
    let rb := rd (2 * k.val + 1) ob oa (fun l => two && v.getLsbD (8 + l))
    let w := fun (o : Option PortOp) (s : State) => match o with | some o => s.skimWrite k o | none => s
    -- the later of the two writes stands: port A's, but for lanes in which two clocks collide
    let s := w oa (w ob s)
    let s := match oa, ob with
      | some x, some y => if two then s.skimCollide k x y v else s
      | _, _ => s
    let out := fun (key : Nat) (o : Option PortOp) (r : Option (List (BitVec 16 × Bool))) (s : State) =>
      match o, r with
      | some o, some r => s.skimOut k key o r
      | _, _ => s
    .next (out (2 * k.val + 1) ob rb (out (2 * k.val) oa ra s)).settleAll

/-- FABRIC_QUEUE_PUSH: a push at a producer edge, of the word that q_din carries; q_drop shows one that is discarded two edges later
(R117). -/
def execFabricQueuePush (k : SkimId) (i : Fin 8) (prio : BitVec 2) (ins : List FabIn) (s : State) : Res :=
  let s := s.takeIns ins
  if ¬ s.qProducer k ∨ (s.mea (k.val / 64)).col = .off then .next s
  else
    let q := 8 * k.val + i.val
    let x := s.queue q
    let p := s.qPort k
    if s.qFabricWorld k ∧ (x.slot 0).held ≠ 0 ∧ (s.mea (k.val / 64)).col = .on then
      .next ((s.setQueue q (x.push 0 prio (s.qData q (s.skimDin k 0)))).setQPort k { p with dropIn := p.dropIn &&& 6 })
    else
      .next ((s.setQueue q (x.giveBack 0)).setQPort k { p with dropIn := p.dropIn ||| 1 })

/-- FABRIC_QUEUE_POP: a consumer edge with its q_rsel and q_pop (R121). Outside ON the queue is frozen, its counters with it
(R99). -/
def execFabricQueuePop (k : SkimId) (rsel : Fin 8) (pop : Bool) (s : State) : Res :=
  if ¬ s.qConsumer k then .next s
  else
    let q := 8 * k.val + rsel.val
    let p := s.qPort k
    let s := if pop then
        if s.qHasWord k rsel ∧ rsel.val = p.rsel ∧ p.valid.getLsbD rsel then s.deliver q
        else if s.qCol q = .on then s.updQueue q fun x => { x with popIgn := satInc x.popIgn }
        else s
      else s
    let head := if s.qHasWord k rsel then (s.queue q).head else none
    .next (s.setQPort k { s.qPort k with rsel := rsel.val, valid := s.qValid k, dout := head }).settleAll

/-! ## Screed blocks (R92-R97, R102, R222) -/

def State.screedCfg (s : State) (k : Nat) : ScreedCfg := (s.mea (k / 6)).live.pers.screeds.get {} (k % 6)
def screedAddr (k off : Nat) : Nat := 65536 * k + off
/-- Mark key of the lane at a byte offset. -/
def screedKey (k off : Nat) : Nat := 32768 * k + off / 2
def State.screedLane (s : State) (k off : Nat) : BitVec 16 := s.mem.screed.lane (screedAddr k off)
def State.screedMark (s : State) (k off : Nat) : Mark := s.mem.screedMark.get .ok (screedKey k off)

/-- Write the lane at byte offset `off` by the alias, under 16 enables as two byte enables: the lane is left alone, with an
error indication, when the write must merge with a lane that holds a double-bit error or the poison marker (R95, R97). -/
def State.screedWriteLane (s : State) (k off al : Nat) (d : BitVec 16) (lo hi : Bool) : State × Bool :=
  if ¬ lo ∧ ¬ hi then (s, false)
  else
    let whole := al = 0 && lo && hi
    if ¬ whole ∧ s.screedMark k off ≠ .ok then (s, true)
    else
      let old := s.screedLane k off
      let new := if al = 1 then old ||| d else if al = 2 then old &&& ~~~d else d
      let mask : BitVec 16 := (if hi then 0xFF00 else 0) ||| (if lo then 0x00FF else 0)
      let v := (old &&& ~~~mask) ||| (new &&& mask)
      ({ s with mem.screed := s.mem.screed.setLane (screedAddr k off) v,
                mem.screedMark := s.mem.screedMark.set .ok (screedKey k off) .ok }, false)

/-- Write a run of bytes with their enables from an even byte offset on, lane by lane; whether a lane was refused. -/
def State.screedWrite (s : State) (k off al : Nat) : List Byte → List Bool → State × Bool
  | d0 :: d1 :: ds, e0 :: e1 :: es =>
    let (s, x) := s.screedWriteLane k off al (d1 ++ d0) e0 e1
    let (s, y) := s.screedWrite k (off + 2) al ds es
    (s, x || y)
  | _, _ => (s, false)

/-- The fabric ports of a screed block act: the design runs (R102 and R99 decide what they reach). -/
def State.screedReach (s : State) (k : Nat) : Bool :=
  let m := s.mea (k / 6)
  m.world = m.screedWorld && m.col = .on

/-- The lanes with a double-bit error among those at byte offsets are reported (R97). -/
def State.screedReport (s : State) (k : Nat) (offs : List Nat) : State :=
  each (offs.filter fun o => s.screedMark k o = .bad) (fun o s => s.memUncorrectable 1 k (o / 8) (o / 2 % 4)) s

/-- One operation of a fabric port of a screed block: a write is applied before the read of the same edge; read data appears
after the second edge that follows (R93). DESIGN CHOICE (log 13): a lane with the poison marker shows its stored bytes beside scx_err, of
which alone R222 speaks. -/
def State.screedOp (s : State) (k : Nat) (portB : Bool) (din : BitVec 64) (p : PortIn) : State :=
  let c := s.screedCfg k
  let pc := if portB then c.b else c.a
  let key := 2 * k + bit portB
  if ¬ s.netRuns (k / 6) pc.clk ∨ (portB ∧ c.bGate) then s
  else
    let n := if pc.width = 0 then 1 else if pc.width = 1 then 2 else 4
    let wa := fld p.addr.toNat 0 15 / n * n
    let al := fld p.addr.toNat 15 2
    let reach := s.screedReach k
    let lanes := List.range n
    let (s, werr) :=
      if p.en ∧ reach ∧ al ≠ 3 then
        lanes.foldl (fun (acc : State × Bool) i =>
          let e := p.we.getLsbD i
          let r := acc.1.screedWriteLane k (2 * (wa + i)) al (wordLane din i) e e
          (r.1, acc.2 || r.2)) (s, false)
      else (s, false)
    let offs := lanes.map fun i => 2 * (wa + i)
    let data := lanesWord (offs.map fun o => s.screedLane k o)
    let new : Option (BitVec 64 × Bool) :=
      if ¬ p.en then none
      else if ¬ reach then some (0, false)
      else if al = 3 then some (0, true)
      else some (data, werr || offs.any fun o => s.screedMark k o ≠ .ok)
    let s := { s with mem.screedPort := s.mem.screedPort.upd {} key fun q => q.loadScreed new }
    if p.en ∧ reach ∧ al ≠ 3 then s.screedReport k offs else s

/-- SCREED_PORT_ACCESS: the operations of the fabric ports of a screed block that arrive in one array cycle, an active edge of
one or both ports: A, then B, each seeing the one before (R96). -/
def execScreedPortAccess (k : ScreedId) (a b : Option PortIn) (s : State) : Res :=
  let s := s.takePorts a b
  let (da, db) := (s.screedDin k 0, s.screedDin k 1)
  let s := match a with | some p => s.screedOp k false da p | none => s
  .next (match b with | some p => s.screedOp k true db p | none => s).settleAll

/-- The lanes, by byte offset, that a run of bytes touches. -/
def laneOffs (off len : Nat) : List Nat := (List.range ((off % 2 + len + 1) / 2)).map fun i => off / 2 * 2 + 2 * i

/-! ## Memory columns (R99-R101) -/

/-- Screed blocks that a placement uses. -/
def Place.blocks : Place → List Nat
  | .hbm _ _ => []
  | .screed gs => gs.map (·.1)

/-- The pool manager holds a live buffer, or a migration's new copy, in the column of meadow `m`. -/
def State.columnHeld (s : State) (m : Nat) : Bool :=
  (s.pool.buf.ents.any fun e => match e.2 with | some b => b.place.blocks.any fun k => k / 6 = m | none => false) ||
    s.pool.mig.any fun g => g.dest.blocks.any fun k => k / 6 = m

/-- A queue of the column holds a word or has credits issued (R100). -/
def State.columnQueues (s : State) (m : Nat) : Bool :=
  s.que.q.ents.any fun e => e.1 / 512 = m &&
    (e.2.count ≠ 0 || (List.range 4).any fun i => (e.2.slot i).held < (e.2.slot i).grant)

/-- MEM_POWER_SET: the status is OK when the new state is reached (R100). -/
def memPowerSet (s : State) (h : Nat) (c : Cmd) : Ans :=
  let m := c.f 0 0 8
  let x := s.mea m
  let t := match c.f 0 8 2 with | 0 => ColState.on | 1 => .retention | _ => .off
  if x.colReq.isSome then { s := s, wait := true }
  else if ¬ reaches c.world x.world then .denied s h c
  else if x.col = t then .ignored s
  else if t ≠ .on ∧ s.columnHeld m then .busy s
  else if t = .off ∧ s.columnQueues m then .busy s
  else { s := s.setMea m { x with colReq := some (t, h, c.seq) }, wait := true }

def execMemPowerSet (h : HostId) (s : State) : Res := runCmd h 0x0902 anyCmd memPowerSet s

/-- The contents of the memories of a column are lost (R99, R100). -/
def State.clearColumn (s : State) (m : Nat) : State :=
  { s with
    mem.skim := s.mem.skim.clear (8192 * 64 * m) (8192 * 64), mem.screed := s.mem.screed.clear (65536 * 6 * m) (65536 * 6)
    mem.skimMark := s.mem.skimMark.drop fun k => k / (4096 * 64) = m
    mem.screedMark := s.mem.screedMark.drop fun k => k / (32768 * 6) = m }

/-- MEM_COLUMN_STATE_CHANGE: the requested state takes effect with no hedgerow transaction in progress. A return to ON has
its own completion. DEDUCED (log 20): one still asked for as the device enters HOLD takes effect after the return to RUN, since R101
returns the column to its previous state. -/
def execMemColumnStateChange (m : MeadowId) (s : State) : Res :=
  let x := s.mea m
  match x.colReq with
  | some (t, h, seq) =>
    if t = .on ∨ ¬ s.alive ∨ s.pwr.mode = .hold then .next s
    else
      let s := s.setMea m { x with col := t, colReq := none }
      let s := if t = .off then { s.clearColumn m with que.q := s.que.q.drop fun q => q / 512 = m } else s
      .next (s.replyTo h seq fun s => { s := s })
  | none => .next s

/-- MEM_COLUMN_ON_COMPLETE: the column is ON; one that was OFF is cleared to zero before any access, and what a load wrote to
it while it was OFF is lost with it (R100). -/
def execMemColumnOnComplete (m : MeadowId) (s : State) : Res :=
  let x := s.mea m
  match x.colReq with
  | some (t, h, seq) =>
    if t ≠ .on ∨ ¬ s.alive ∨ s.pwr.mode = .hold then .next s
    else
      let s := if x.col = .off then s.clearColumn m else s
      .next ((s.setMea m { x with col := .on, colReq := none }).replyTo h seq fun s => { s := s })
  | none => .next s

end Sys2Proof.Machine
end

