-- ==== Sys2Proof/Machine/Controller.lean ====
section
/-! DEFINITION. What the controller of a pseudo-channel decides (spec/11_hbm_controllers.md): lines and banks, request ports, ages
and urgency, the order in which waiting requests are served. -/

namespace Sys2Proof.Machine

/-! ## Lines and banks (R228-R231) -/

/-- Lines of a pseudo-channel and granules of one. -/
def chanLines : Nat := 25165824
def chanGrans : Nat := 393216
/-- Number of the line LA of pseudo-channel `pc`. -/
def lineKey (pc la : Nat) : Nat := 2 ^ 25 * pc + la

/-- Mapping registers of a pseudo-channel (R230). -/
def Pch.masks (x : Pch) : List Nat :=
  match x.map with
  | some (a, b, c, d) => [a.toNat, b.toNat, c.toNat, d.toNat]
  | none => [0x0222220, 0x0444440, 0x0088880, 0x0111100]

/-- Exclusive-or of the bits of a number. -/
def parity : Nat → Nat → Bool
  | 0, _ => false
  | n + 1, v => (v % 2 = 1) != parity n (v / 2)

/-- The mapped bank of a line: SID and the four mapped bits (R229, R230). -/
def Pch.bank (x : Pch) (la : Nat) : Nat :=
  16 * (la / 2 ^ 23) + ((x.masks.zipIdx).map fun m => if parity 25 (m.1 &&& la) then 2 ^ m.2 else 0).foldl (· + ·) 0

/-- Banks that a granule covers. -/
def Pch.granBanks (x : Pch) (g : Nat) : List Nat := ((List.range 64).map fun i => x.bank (64 * g + i)).dedup

/-- ROW of a line address (R229). -/
def rowOf (la : Nat) : Nat := fld la 9 14

/-! ## Ages and urgency (R232, R233) -/

/-- Latency targets of the eight ports in ns (R232). -/
def State.qosTarget (s : State) (pc p : Nat) : Nat :=
  match (s.pch pc).qos.get none p with
  | some t => t.toNat
  | none => [0, 2000, 1000, 500, 0, 0, 4000, 8000].getD p 0

/-- The target of a request: its port's; none for a patrol read, which stays at urgency 0 (R246). -/
def State.target (s : State) (pc : Nat) (r : HbmReq) : Nat := if r.patrol then 0 else s.qosTarget pc r.port

/-- Age of a request at time `t`, in units of 2^-32 ns. -/
def HbmReq.age (r : HbmReq) (t : Nat) : Nat := t - r.at_

/-- Urgency of a request of that age on a port with that target in ns: 1 from 50 %, 2 from 75 %, 3 from 100 %; 0 without a
target (R233). -/
def urgency (target age : Nat) : Nat :=
  let t := target * nsU
  if target = 0 ∨ 2 * age < t then 0 else if 4 * age < 3 * t then 1 else if age < t then 2 else 3

/-! ## The choice (R234) -/

/-- The write buffer of 64 lines takes the request: a read needs no line, a write one of its own unless a write to the same line
stands there. -/
def bufferTakes (l : List HbmReq) (r : HbmReq) : Bool :=
  let lines := ((l.filter (·.write)).map (·.la)).dedup
  !r.write || lines.contains r.la || decide (lines.length < 64)

/-- The requests that the controller holds, of those that have arrived: 128, 8 of them reserved for each port, and writes to 64
lines. The others wait in the scrim slice; that a write beyond the buffer's 64 lines waits there too is a DESIGN CHOICE (log 16). -/
def accepted (l : List HbmReq) : List HbmReq :=
  (l.foldl (fun (a : List HbmReq × Nat) r =>
    if ¬ bufferTakes a.1 r then a
    else if a.1.countP (·.port = r.port) < 8 then (a.1 ++ [r], a.2)
    else if a.2 < 64 then (a.1 ++ [r], a.2 + 1)
    else a) ([], 0)).1

/-- A read whose line stands in the write buffer: it is served from there. -/
def bufferRead (writes : List Nat) : List HbmReq → Option HbmReq
  | [] => none
  | r :: l => if r.write then bufferRead (r.la :: writes) l else if r.la ∈ writes then some r else bufferRead writes l

/-- The requests that no older one to the same line holds back (R209). -/
def fronts (lines : List Nat) : List HbmReq → List HbmReq
  | [] => []
  | r :: l => if r.la ∈ lines then fronts lines l else r :: fronts (r.la :: lines) l

/-- Writes wait in a buffer of 64 lines, drained in a group once 48 wait or when no read waits. -/
def Pch.drains (x : Pch) (l : List HbmReq) : Bool :=
  let w := l.countP (·.write)
  w ≠ 0 && (x.drain || decide (48 ≤ w) || l.all (·.write))

/-- The row of a request is open in its bank. -/
def Pch.rowHit (x : Pch) (r : HbmReq) : Bool := x.rows.get none (x.bank r.la) = some (rowOf r.la)

/-- What the rules 2, 4 and 5 see of a request at time `t`: its urgency, its open row, its direction. -/
def Pch.merit (x : Pch) (target : HbmReq → Nat) (drain : Bool) (t : Nat) (r : HbmReq) : Nat × Bool × Bool :=
  (urgency (target r) (r.age t), x.rowHit r, r.write = drain)

/-- A younger request goes before an older one: higher urgency; at urgency 3 never; then an open row; then the direction in
use (rules 2 to 6). -/
def passes (young old : Nat × Bool × Bool) : Bool :=
  if young.1 ≠ old.1 then decide (old.1 < young.1)
  else if young.1 = 3 then false
  else if young.2.1 ≠ old.2.1 then young.2.1
  else young.2.2 && !old.2.2

/-- The request served next at time `t`: a read from the write buffer, else the first by the rules among those held that no older
request to the same line, held or waiting in the slice, holds back. -/
def Pch.choose (x : Pch) (target : HbmReq → Nat) (t : Nat) : Option HbmReq :=
  let l := accepted x.reqs
  match bufferRead [] l with
  | some r => some r
  | none =>
    let d := x.drains l
    ((fronts [] x.reqs).filter fun r => l.contains r).foldl (fun best r => match best with
      | none => some r
      | some b => if passes (x.merit target d t r) (x.merit target d t b) then some r else some b) none

/-- The request leaves: its row is open in its bank, unless the write buffer has served it. -/
def Pch.serve (x : Pch) (r : HbmReq) : Pch :=
  let l := accepted x.reqs
  let fromBuffer := bufferRead [] l = some r
  { x with
    reqs := x.reqs.erase r, drain := x.drains l
    rows := if fromBuffer then x.rows else x.rows.set none (x.bank r.la) (some (rowOf r.la)) }

/-- A request that completes is counted in URGENT_LATE when that is after its port's target. -/
def State.countLate (s : State) (pc : Nat) (r : HbmReq) (t : Nat) : State :=
  let g := s.target pc r
  if g ≠ 0 ∧ g * nsU < r.age t then { s with hbm.late := s.hbm.late.upd 0 pc satInc } else s

/-- The controller serves what waits. How long each request takes is free (log 3): a step of the device gives no times within
it. A request without a target has no use for its time. -/
def State.serveN (s : State) (pc : Nat) : Nat → Nat → State
  | 0, _ => s
  | n + 1, t =>
    match (s.pch pc).choose (s.target pc) t with
    | none => s
    | some r =>
      let (v, s) := if s.target pc r = 0 then (0, s) else s.draw
      let t := t + v.toNat
      ((s.updPch pc fun x => x.serve r).countLate pc r t).serveN pc n t

/-- Every controller serves what waits in it. -/
def State.serveAll (s : State) : State :=
  each (List.range 32) (fun pc s => s.serveN pc (s.pch pc).reqs.length s.tl.up) s

/-! ## Requests (R237, R240) -/

/-- The pseudo-channel serves an access, leaving self-refresh for it (R237, R240). -/
def Pch.serves (x : Pch) : Bool := x.st = .active || x.st = .selfRefresh

/-- Leave self-refresh. -/
def State.wakePch (s : State) (pc : Nat) : State :=
  if (s.pch pc).st = .selfRefresh then s.updPch pc fun x => { x with st := .active } else s

/-- A request reaches the controller, which leaves self-refresh for it. `at_` is when, where it has waited since. -/
def State.request (s : State) (pc port la : Nat) (write : Bool) (at_ : Option Nat) : State :=
  (s.wakePch pc).updPch pc fun x => { x with reqs := x.reqs ++ [{ port := port, la := la, write := write, at_ := at_.getD s.tl.up }] }

end Sys2Proof.Machine
end

