-- ==== Sys2Proof/Machine/Scrim.lean ====
section
/-! DEFINITION. The scrim engine (spec/12_scrim_engine.md): regions, line reads and writes, write counters, key rolls, poison walks. -/

namespace Sys2Proof.Machine

/-! ## Lines and regions (R228, R229, R248) -/

/-- Lines of a region on one pseudo-channel. -/
def regionLines : Nat := 196608
/-- The region of a line (R248). -/
def regionOf (pc la : Nat) : Nat := 128 * (pc / 16) + la / regionLines

def State.slice (s : State) (i : Nat) : Slice := s.scrim.slice.get {} i
def State.updSlice (s : State) (i : Nat) (f : Slice → Slice) : State := { s with scrim.slice := s.scrim.slice.upd {} i f }

/-- The walking roll of a region. -/
def Region.walkingRoll (x : Region) : Option Roll := x.roll.filter (·.walking)

/-- The line lies below the boundary of the region's walking roll (R259). -/
def Region.below (x : Region) (pc la : Nat) : Bool :=
  match x.walkingRoll with
  | some r => decide (la % regionLines < r.bound.get 0 (pc % 16))
  | none => false

/-- The integrity setting in force at a line (R259). -/
def Region.integAt (x : Region) (pc la : Nat) : Bool :=
  match x.walkingRoll with
  | some r => if x.below pc la then r.integ else x.integ
  | none => x.integ

/-- The setting that the last roll started on the region moves it to. -/
def Region.goal (x : Region) : Bool :=
  match x.roll2, x.roll with
  | some r, _ => r.integ
  | none, some r => r.integ
  | none, none => x.integ

/-! ## Starting rolls and counting writes (R256-R260) -/

/-- Start a roll of region `r`, or merge it (R260). Causes: 1 host, 2 exhausted, 3 counter error, 4 integrity change. -/
def State.startRoll (s : State) (r : Nat) (cause : BitVec 3) (integ : Bool) : State :=
  let x := s.region r
  let wait := fun (s : State) => s.updSlice (r / 128) fun c => { c with waiting := c.waiting ++ [r] }
  match x.roll with
  | none => wait (s.setRegion r { x with roll := some { cause := cause, integ := integ, walking := false }, cause := cause })
  | some q =>
    if cause ≠ 4 then s
    else if q.walking = false then s.setRegion r { x with roll := some { q with integ := integ } }
    else
      match x.roll2 with
      | some q2 => s.setRegion r { x with roll2 := some { q2 with integ := integ } }
      | none => wait (s.setRegion r { x with roll2 := some { cause := cause, integ := integ, walking := false }, cause := cause })

/-- Fold leaf `p` into the root; an exhausted key starts a roll (R257). -/
def State.fold (s : State) (r p : Nat) : State :=
  let x := s.region r
  let root := (x.root + x.leaf.get 0 p) % 2 ^ 48
  let s := s.setRegion r { x with root := root, leaf := x.leaf.set 0 p 0 }
  if 2 ^ 40 ≤ root then s.startRoll r 2 x.goal else s

/-- Count a line write, when it is made under the region's current key (R256, R257). -/
def State.countWrite (s : State) (pc la : Nat) : State :=
  let r := regionOf pc la
  let p := pc % 16
  let x := s.region r
  if x.walkingRoll.isSome ∧ ¬ x.below pc la then s
  else
    let s := s.setRegion r { x with leaf := x.leaf.set 0 p (x.leaf.get 0 p + 1) }
    if 2 ^ 24 ≤ x.leaf.get 0 p + 1 then s.fold r p else s

/-! ## What a line holds (R243, R244, R252, R265) -/

/-- What a read of the line meets: its data, poison, an uncorrectable code, a tag that fails, or meaningless data: under a
discarded key with integrity off, or behind errors beyond what the code detects. -/
inductive Seen where
  | data | poison | badCode | badTag | junk
deriving DecidableEq, Repr

def State.lineMark (s : State) (pc la : Nat) : Mark := s.hbm.mark.get .ok (lineKey pc la)
def State.setMark (s : State) (pc la : Nat) (m : Mark) : State := { s with hbm.mark := s.hbm.mark.set .ok (lineKey pc la) m }
def State.lineUpset (s : State) (pc la : Nat) : LineUpset := s.hbm.upset.get {} (lineKey pc la)
def State.setUpset (s : State) (pc la : Nat) (u : LineUpset) : State :=
  { s with hbm.upset := s.hbm.upset.set {} (lineKey pc la) u }

def State.lineData (s : State) (pc la : Nat) : List Byte := s.hbm.mem.readN (64 * lineKey pc la) 64

/-- Symbols of 8 bits that are wrong, among the 72 of the line's data and side bits. -/
def upsetSymbols (u : LineUpset) : Nat := (List.range 72).countP fun i => u.bits.extractLsb' (8 * i) 8 ≠ 0

/-- What a side-bit code says of a number of wrong symbols. -/
inductive CodeSays where
  | clean | corrected | uncorrectable | beyond
deriving DecidableEq, Repr

/-- The Reed-Solomon code of the integrity setting: two symbols corrected and six detected without the tag, one and four beside
it; beyond that it promises nothing (R243). -/
def codeSays (integ : Bool) (n : Nat) : CodeSays :=
  if n = 0 then .clean
  else if n ≤ (if integ then 1 else 2) then .corrected
  else if n ≤ (if integ then 4 else 6) then .uncorrectable
  else .beyond

/-- Where TL_NS has passed zero since the present one-second interval began, a new one starts (R244). -/
def State.ceInterval (s : State) : State :=
  let sec := s.tl.now / secU
  if sec = s.hbm.ceSec then s
  else
    let s : State := { s with hbm.ceSec := sec }
    each (List.range 32) (fun pc s => s.updPch pc fun x => { x with ceCount := 0 }) s

/-- A corrected error: counted in the interval that the timeline is in, and a storm reported at the 1,025th of it (R244). -/
def State.countCorrected (s : State) (pc : Nat) : State :=
  let s := s.ceInterval.updPch pc fun x => { x with corr := satInc x.corr, ceCount := x.ceCount + 1 }
  if (s.pch pc).ceCount = 1025 then s.ownerEvent 0x0702 [pc, 1025] else s

/-- The tag of a line whose code decodes: it fails under a key that has been discarded, and for an altered line (R252, R265). -/
def State.tagSees (s : State) (pc la : Nat) : Seen :=
  let x := s.region (regionOf pc la)
  let lostKey := x.stale ∧ lineKey pc la ∉ x.fresh
  if x.integAt pc la then (if lostKey ∨ (s.lineUpset pc la).tag then .badTag else .data) else if lostKey then .junk else .data

/-- A read of the line as its controller and slice meet it: the code first, the tag second (R252). A correctable error is
corrected, counted and rewritten; so is counted what the stack's own code reports (R243, R244). What errors beyond the code's
detection give is free. -/
def State.look (s : State) (pc la : Nat) : Seen × State :=
  let integ := (s.region (regionOf pc la)).integAt pc la
  let u := s.lineUpset pc la
  match s.lineMark pc la with
  | .poison => (.poison, s)
  | .bad => (.badCode, s)
  | .ok =>
    if u.addr then (.badCode, s)
    else
      let s := if u.onDie then (s.setUpset pc la { u with onDie := false }).countCorrected pc else s
      match codeSays integ (upsetSymbols u) with
      | .clean => (s.tagSees pc la, s)
      | .corrected =>
        let s := (s.setUpset pc la { u with bits := 0, onDie := false }).countCorrected pc
        (s.tagSees pc la, s.countWrite pc la)
      | .uncorrectable => (.badCode, s)
      | .beyond =>
        let (v, s) := s.draw
        (if v.getLsbD 0 then .badCode else if integ ∧ v.getLsbD 1 then .badTag else .junk, s)

/-- `n` words of free bytes. -/
def State.drawBytes (s : State) : Nat → List Byte × State
  | 0 => ([], s)
  | n + 1 =>
    let (v, s) := s.draw
    let (r, s) := s.drawBytes n
    (leBytes 8 v.toNat ++ r, s)

/-- The line's data was written under the key in force. -/
def Region.freshen (x : Region) (pc la : Nat) : Region :=
  if x.stale then { x with fresh := lineKey pc la :: x.fresh.erase (lineKey pc la) } else x

/-- Store a whole line with fresh code and tag (R254), counted. -/
def State.putLine (s : State) (pc la : Nat) (data : List Byte) : State :=
  let s := { s with hbm.mem := s.hbm.mem.writeN (64 * lineKey pc la) data }
  (((s.setMark pc la .ok).setUpset pc la {}).updRegion (regionOf pc la) fun x => x.freshen pc la).countWrite pc la

/-- Causes of SCRIM_LINE_POISONED, as passed to its opaque DETAIL. -/
def pcTag : Nat := 0
def pcEcc : Nat := 1
def pcPartial : Nat := 2
def pcRoll : Nat := 3
/-- A line poisoned by a copy of poison or by the walk of a lost region, for which R253 and R264 give no cause: DESIGN CHOICE
(log 16). -/
def pcOther : Nat := 4

/-- The poison marker and its event: to the owner, and to the finding host (R18, R253). -/
def State.poisonLine (s : State) (finder : Option Nat) (pc la cause : Nat) : State :=
  ((s.setMark pc la .poison).setUpset pc la {}).event (s.pwr.owner :: finder.toList) 0x0703 [regionOf pc la, pc, la, cause]

/-! ## Reads and writes of a line -/

/-- Response statuses of R207. -/
def hsOk : BitVec 3 := 0
def hsError : BitVec 3 := 1
def hsPoison : BitVec 3 := 2
def hsDenied : BitVec 3 := 3
def hsRange : BitVec 3 := 4
def hsHandle : BitVec 3 := 5
def hsTimeout : BitVec 3 := 6

/-- What an access answers: the state, the status, the data, and the resource that refused it. -/
structure Got where
  s : State
  st : BitVec 3 := 0
  data : List Byte := []
  res : Option (Nat × Nat) := none

/-- Refuse with DENIED; the event is the transaction's, once. -/
def Got.denied (s : State) (kind index n : Nat) : Got :=
  { s := s, st := hsDenied, data := List.replicate n 0, res := some (kind, index) }

/-- One part of a transaction after another: the first status that is not OK stands. -/
def Got.andThen (g : Got) (f : State → Got) : Got :=
  let h := f g.s
  { s := h.s, st := if g.st = hsOk then h.st else g.st, data := g.data ++ h.data
    res := match g.res with | some r => some r | none => h.res }

/-- A read that found an uncorrectable code (R245). -/
def State.badCodeRead (s : State) (finder : Option Nat) (pc la cause : Nat) : State :=
  (s.updPch pc fun x => { x with uncorr := satInc x.uncorr }).poisonLine finder pc la cause

/-- A read that found a bad tag (R253). -/
def State.badTagRead (s : State) (finder : Option Nat) (pc la : Nat) : State :=
  (s.updSlice (pc / 16) fun c => { c with tagFails := satInc c.tagFails }).poisonLine finder pc la pcTag

def State.poisonRead (s : State) (pc : Nat) : State := s.updPch pc fun x => { x with poisonReads := satInc x.poisonReads }

/-- Read a line. -/
def State.readLine (s : State) (a : Asker) (port pc la : Nat) : Got :=
  let r := regionOf pc la
  let x := s.region r
  let zero := List.replicate 64 0
  if ¬ (s.pch pc).serves then { s := s, st := hsError }
  else if x.world ∧ ¬ a.world then .denied s 5 r 64
  else
    let s := s.request pc port la false a.at_
    if x.lost then { s := s.poisonRead pc, st := hsPoison, data := zero }
    else
      match s.look pc la with
      | (.data, s) => { s := s, data := s.lineData pc la }
      | (.junk, s) => let (d, s) := s.drawBytes 8; { s := s, data := d }
      | (.poison, s) => { s := s.poisonRead pc, st := hsPoison, data := zero }
      | (.badCode, s) => { s := s.badCodeRead a.finder pc la pcEcc, st := hsError }
      | (.badTag, s) => { s := s.badTagRead a.finder pc la, st := hsError }

/-- A partial write that is not performed (R254). -/
def State.partialRefused (s : State) (pc : Nat) : State :=
  s.updSlice (pc / 16) fun c => { c with partialRef := satInc c.partialRef }

/-- Write a line under its 64 byte enables (R254). -/
def State.writeLine (s : State) (a : Asker) (port pc la : Nat) (data : List Byte) (be : List Bool) : Got :=
  let r := regionOf pc la
  let x := s.region r
  if ¬ (s.pch pc).serves then { s := s, st := hsError }
  else if x.world ∧ ¬ a.world then .denied s 5 r 0
  else
    let put := fun (s : State) (d : List Byte) => (s.request pc port la true a.at_).putLine pc la d
    if x.lost then { s := s.wakePch pc, st := hsError }
    else if be.all id then { s := put s data }
    else
      -- the merge reads the line before its write is queued
      match (s.request pc port la false a.at_).look pc la with
      | (.data, s) => { s := put s (merge (s.lineData pc la) data be) }
      | (.junk, s) => let (d, s) := s.drawBytes 8; { s := put s (merge d data be) }
      | (.poison, s) => { s := (s.poisonRead pc).partialRefused pc, st := hsError }
      | (.badCode, s) => { s := (s.badCodeRead a.finder pc la pcPartial).partialRefused pc, st := hsError }
      | (.badTag, s) => { s := (s.partialRefused pc).poisonLine a.finder pc la pcPartial, st := hsError }

/-! ## Placements (R218, R221, R229) -/

/-- Where 64 bytes of a buffer lie. -/
inductive At where
  | hbm (pc la : Nat)
  | screed (block off : Nat)
  | nowhere
deriving DecidableEq, Repr

/-- The line at byte offset `off`: interleave granules go round the channels in ascending order (R218 rule 5). -/
def Place.at (p : Place) (off : Nat) : At :=
  match p with
  | .hbm il chans =>
    let k := chans.length
    let i := off / il
    match chans[i % k]? with
    | some (pc, gs) =>
      let w := i / k * il + off % il
      match gs[w / 4096]? with
      | some g => .hbm pc (64 * g + w % 4096 / 64)
      | none => .nowhere
    | none => .nowhere
  | .screed gs =>
    match gs[off / 4096]? with
    | some (b, g) => .screed b (4096 * g + off % 4096)
    | none => .nowhere

/-- Granules of pseudo-channel `pc` that a placement holds. -/
def Place.grans (p : Place) (pc : Nat) : List Nat :=
  match p with
  | .hbm _ chans => (chans.filter fun c => c.1 = pc).flatMap (·.2)
  | .screed _ => []

def Place.chans : Place → List Nat
  | .hbm _ cs => cs.map (·.1)
  | .screed _ => []

def Place.isHbm : Place → Bool
  | .hbm _ _ => true
  | .screed _ => false

/-- Every line of the placement exists (R229). -/
def Place.exists_ : Place → Bool
  | .hbm _ cs => cs.all fun c => c.1 < 32 && c.2.all fun g => g < chanGrans
  | .screed _ => true

/-- The offset's granule is not yet filled (R255). -/
def Buf.unfilled (b : Buf) (off : Nat) : Bool :=
  match b.fill with
  | some l => decide (off / 4096 ∉ l)
  | none => false

/-- The migration of a buffer that runs or waits first. -/
def State.migOf (s : State) (h : Nat) : Option Migration := s.pool.mig.find? fun m => m.handle = h

/-- Offsets of the 64 lines of a buffer granule. -/
def granOffs (g : Nat) : List Nat := (List.range 64).map fun i => 4096 * g + 64 * i

/-- Fill a granule of a buffer with zero lines, and record it (R255). A write to a lost region is not made; its line ends
poisoned as every allocated line of it does (R264). -/
def State.fillGran (s : State) (h g : Nat) : State :=
  match s.buf h with
  | some b =>
    match b.fill with
    | some l =>
      let s := each (granOffs g) (fun o s =>
        match b.place.at o with
        | .hbm pc la =>
          let s := s.request pc 4 la true none
          if (s.region (regionOf pc la)).lost then s.poisonLine none pc la pcOther else s.putLine pc la (List.replicate 64 0)
        | _ => s) s
      s.setBuf h (some { b with fill := if b.size ≤ (g :: l).length then none else some (g :: l) })
    | none => s
  | none => s

/-! ## Allocated granules of a region -/

/-- The buffer offset that a placement puts at a line (R218 rule 5). -/
def Place.offOf (p : Place) (pc la : Nat) : Option Nat :=
  match p with
  | .hbm il chans =>
    (chans.zipIdx).findSome? fun c =>
      if c.1.1 = pc then
        (c.1.2.idxOf? (la / 64)).map fun i =>
          let w := 4096 * i + 64 * (la % 64)
          (w / il * chans.length + c.2) * il + w % il
      else none
  | .screed _ => none

/-- A requester can reach the line: it belongs to a filled granule of a buffer, or lies below the copy boundary in a migration's
new placement (R246). -/
def State.reachable (s : State) (pc la : Nat) : Bool :=
  (s.pool.buf.ents.any fun e => match e.2 with
    | some b => (b.place.offOf pc la).any fun o => decide (o < 4096 * b.size) && !b.unfilled o
    | none => false) ||
  s.pool.mig.any fun m => (m.dest.offOf pc la).any fun o => decide (o / 4096 < m.bound)

/-- Granules of `pc` that any placement holds. -/
def State.heldGrans (s : State) (pc : Nat) : List Nat :=
  (s.pool.buf.ents.flatMap fun e => match e.2 with | some b => b.place.grans pc | none => []) ++
  (s.pool.mig.flatMap fun m => m.dest.grans pc)

/-- The least element of a list that is at least `lo`. -/
def leastFrom (lo : Nat) (l : List Nat) : Option Nat := (l.filter (lo ≤ ·)).min?

/-! ## Rolls (R258-R261) -/

/-- Rolls walking in a slice. -/
def State.rollsActive (s : State) (i : Nat) : Nat :=
  ((List.range 128).filter fun k => (s.region (128 * i + k)).walkingRoll.isSome).length

/-- SCRIM_COUNTER_FOLD: a leaf is folded into its root (every 1 ms, R257); the leaf of a FAILED pseudo-channel is frozen (R261). -/
def execScrimCounterFold (r : RegionId) (p : Fin 16) (s : State) : Res :=
  .next (if (s.pch (16 * (r.val / 128) + p.val)).st = .failed then s else s.fold r p)

/-- SCRIM_ROLL_START: the first roll in order begins to walk, four at most in a slice; not in HOLD. -/
def execScrimRollStart (r : RegionId) (s : State) : Res :=
  let x := s.region r
  let i := r.val / 128
  let first := (s.slice i).waiting.find? fun k => (s.region k).walkingRoll.isNone && !(s.region k).lost
  match x.roll with
  | some q =>
    if first = some r.val ∧ q.walking = false ∧ s.rollsActive i < 4 ∧ s.pwr.mode ≠ .hold then
      let s := s.setRegion r { x with
        roll := some { q with walking := true, bound := {} }, epoch := x.epoch + 1, key := x.key + 1, leaf := {}, root := 0 }
      .next (s.updSlice i fun c => { c with waiting := c.waiting.erase r.val })
    else .next s
  | none => .next s

/-- The roll stands still on a pseudo-channel: a retrain is queued or running there (R241, R261). -/
def Pch.pausesRoll (x : Pch) : Bool := !x.retrains.isEmpty || x.st = .retraining

/-- The boundary has passed the region's last line on pseudo-channel `p` of the stack, or the channel has FAILED (R261). -/
def State.rollPassed (s : State) (q : Roll) (stack p : Nat) : Bool :=
  (s.pch (16 * stack + p)).st = .failed || regionLines ≤ q.bound.get 0 p

/-- A roll reads a line under the old key and writes it under the new one (R259), on port 5. -/
def State.rollLine (s : State) (r pc la : Nat) : State :=
  let s := (s.request pc 5 la false none).request pc 5 la true none
  let roll := fun s : State => (s.updSlice (pc / 16) fun c => { c with tagFails := satInc c.tagFails }).poisonLine none pc la pcRoll
  let s := match s.look pc la with
    | (.data, s) => s
    | (.poison, s) => s.poisonRead pc
    | (.junk, s) => let (d, s) := s.drawBytes 8; { s with hbm.mem := s.hbm.mem.writeN (64 * lineKey pc la) d }
    | (.badCode, s) => roll (s.updPch pc fun x => { x with uncorr := satInc x.uncorr })
    | (.badTag, s) => roll s
  let s := s.setUpset pc la {}
  s.updRegion r fun x => x.freshen pc la

/-- SCRIM_ROLL_STEP: 8 lines of an allocated granule, in line-address order; granules not allocated are passed over. -/
def execScrimRollStep (r : RegionId) (p : Fin 16) (s : State) : Res :=
  let stack := r.val / 128
  let pc := 16 * stack + p.val
  let x := s.region r
  match x.walkingRoll with
  | none => .next s
  | some q =>
    let b := q.bound.get 0 p
    let first := regionLines * (r.val % 128)
    if s.pwr.mode = .hold ∨ (s.pch pc).pausesRoll ∨ s.rollPassed q stack p then .next s
    else
      let starts := (s.heldGrans pc).flatMap fun g => (List.range 8).map fun i => 64 * g + 8 * i
      let inside := starts.filterMap fun la => if first ≤ la ∧ la < first + regionLines then some (la - first) else none
      match leastFrom b inside with
      | none => .next (s.setRegion r { x with roll := some { q with bound := q.bound.set 0 p regionLines } })
      | some o =>
        let s := each (List.range 8) (fun i s => s.rollLine r pc (first + o + i)) s
        -- the boundary passes the 8 lines; their writes, poison markers apart, count under the new key (R256)
        let x := s.region r
        let s := s.setRegion r { x with roll := x.roll.map fun q => { q with bound := q.bound.set 0 p (o + 8) } }
        .next (each (List.range 8) (fun i s =>
          if s.lineMark pc (first + o + i) = .poison then s else s.countWrite pc (first + o + i)) s).serveAll

/-- SCRIM_ROLL_DONE: every boundary has passed the last line: the old key is discarded and the owner is told. -/
def execScrimRollDone (r : RegionId) (s : State) : Res :=
  let x := s.region r
  match x.walkingRoll with
  | none => .next s
  | some q =>
    if (List.range 16).all fun p => s.rollPassed q (r.val / 128) p then
      let s := s.setRegion r { x with integ := q.integ, roll := x.roll2, roll2 := none }
      .next (s.ownerEvent 0x0704 [r.val, x.epoch.toNat])
    else .next s

/-! ## Commands of the owner (R260, R262) -/

def scrimRegionSet (s : State) (_ : Nat) (c : Cmd) : Ans :=
  let r := c.f 0 0 8
  let x := s.region r
  let w := c.f 0 8 1 = 1
  let i := c.f 0 9 1 = 1
  if x.world = w ∧ x.goal = i then .ignored s
  else
    let s := s.setRegion r { x with world := w }
    { s := if x.goal = i then s else s.startRoll r 4 i }

def execScrimRegionSet (h : HostId) (s : State) : Res := runCmd h 0x0705 anyCmd scrimRegionSet s

def scrimKeyRoll (s : State) (_ : Nat) (c : Cmd) : Ans :=
  { s := s.startRoll (c.f 0 0 8) 1 (s.region (c.f 0 0 8)).goal }

def execScrimKeyRoll (h : HostId) (s : State) : Res := runCmd h 0x0706 anyCmd scrimKeyRoll s

def scrimShareSet (s : State) (_ : Nat) (c : Cmd) : Ans :=
  { s := s.updSlice (c.f 0 0 1) fun x => { x with share := BitVec.ofNat 8 (c.f 0 8 8) } }

def execScrimShareSet (h : HostId) (s : State) : Res := runCmd h 0x0707 anyCmd scrimShareSet s

/-! ## Faults of the key table and the counters (R263, R264) -/

/-- SCRIM_COUNTER_ERROR: an uncorrectable leaf or root counts as exhaustion. -/
def execScrimCounterError (r : RegionId) (leaf : Option (Fin 16)) (s : State) : Res :=
  let s := s.startRoll r 3 (s.region r).goal
  .next (s.ownerEvent 0x0705 [r.val, match leaf with | some p => p.val | none => 16])

/-- Install a fresh key and epoch, end any roll, and take the setting the last roll moved to. The fresh epoch's value is
free: the spec gives none. -/
def State.freshKey (s : State) (r : Nat) : State :=
  let (v, s) := s.draw
  let s := s.updRegion r fun x => { x with
    integ := x.goal, roll := none, roll2 := none, key := x.key + 1, epoch := v.setWidth 32, leaf := {}, root := 0, walk := 0 }
  s.updSlice (r / 128) fun c => { c with waiting := c.waiting.filter (· ≠ r) }

/-- SCRIM_KEY_TABLE_ERROR: one copy is repaired from the other; with both gone the region is lost. -/
def execScrimKeyTableError (r : RegionId) (both : Bool) (s : State) : Res :=
  if both then
    let s := (s.freshKey r).updRegion r fun x => { x with lost := true }
    .next (s.allEvent 0x0707 [r.val])
  else .next (s.ownerEvent 0x0706 [r.val])

/-- Buffer granules not yet filled that touch granule `g` of `pc`. -/
def Buf.unfilledOn (b : Buf) (pc g : Nat) : List Nat :=
  match b.fill with
  | some l => (List.range b.size).filter fun og => decide (og ∉ l) && (granOffs og).any fun o =>
      match b.place.at o with | .hbm c la => c = pc && la / 64 = g | _ => false
  | none => []

/-- SCRIM_POISON_WALK_STEP: the poison marker on every line of the next allocated granule of a lost region, or the end of the
walk. A granule still to be filled is filled first, so that every allocated line ends poisoned. -/
def execScrimPoisonWalkStep (r : RegionId) (s : State) : Res :=
  let x := s.region r
  if ¬ x.lost ∨ s.pwr.mode = .hold then .next s
  else
    let first := regionLines * (r.val % 128)
    let chans := (List.range 16).map (16 * (r.val / 128) + ·)
    let keys := chans.flatMap fun pc =>
      (s.heldGrans pc).filterMap fun g =>
        if first ≤ 64 * g ∧ 64 * g < first + regionLines then some (lineKey pc (64 * g)) else none
    -- a granule allocated behind the walk is still to be filled: its turn comes before the end
    let behind := keys.filter fun k => (List.range 64).any fun i => s.lineMark (k / 2 ^ 25) (k % 2 ^ 25 + i) ≠ .poison
    match (leastFrom x.walk keys).orElse fun _ => behind.min? with
    | some k =>
      let pc := k / 2 ^ 25
      let g := k % 2 ^ 25 / 64
      let s := each s.pool.buf.keys (fun h s =>
        match s.buf h with
        | some b => each (b.unfilledOn pc g) (fun og s => s.fillGran h og) s
        | none => s) s
      let s := each (List.range 64) (fun i s => 
        let s := s.request pc 5 (64 * g + i) true none
        if s.lineMark pc (64 * g + i) = .poison then s else s.poisonLine none pc (64 * g + i) pcOther) s
      .next (s.serveAll.updRegion r fun x => { x with walk := k + 64 })
    | none =>
      let s := s.updRegion r fun x => { x with lost := false, stale := false, fresh := [], walk := 0 }
      .next (s.allEvent 0x0708 [r.val])

/-- SCRIM_FILL_GRANULE: the fill's next granule in offset order; none in HOLD (R255, R260). -/
def execScrimFillGranule (h : Nat) (s : State) : Res :=
  match s.buf h with
  | some b =>
    if s.pwr.mode = .hold then .next s
    else if ¬ b.place.exists_ then .fault .noSuchLine
    else
      match b.fill with
      | some l =>
        match (List.range b.size).find? fun g => decide (g ∉ l) with
        | some g => .next (s.fillGran h g).serveAll
        | none => .next (s.setBuf h (some { b with fill := none }))
      | none => .next s
  | none => .next s

/-- A region's key is discarded without any line being written (R265). -/
def State.discardKey (s : State) (r : Nat) : State :=
  (s.freshKey r).updRegion r fun x => { x with stale := true, fresh := [] }

/-! ## Status window (R266) -/

def State.regionPaused (s : State) (r : Nat) : Bool :=
  match (s.region r).walkingRoll with
  | some q => (List.range 16).any fun p => (s.pch (16 * (r / 128) + p)).pausesRoll && !s.rollPassed q (r / 128) p
  | none => false

def State.regionStatus (s : State) (r : Nat) : Nat :=
  let x := s.region r
  let st := if x.lost then 3 else if s.regionPaused r then 2 else if x.roll.isSome then 1 else 0
  let integ := match x.walkingRoll with | some q => q.integ | none => x.integ
  pack [(st, 61), (bit x.world, 60), (bit integ, 59), (x.cause.toNat, 56), (x.epoch.toNat, 0)]

def State.sliceStatus (s : State) (i : Nat) : Nat :=
  let c := s.slice i
  pack [(c.share.toNat, 48), (c.tagFails.toNat, 32), (c.partialRef.toNat, 16), (s.rollsActive i, 8), (c.waiting.length % 256, 0)]

end Sys2Proof.Machine
end

