-- ==== Sys2Proof/Machine/Access.lean ====
section
/-! DEFINITION. Accesses to buffers and to direct windows, whole transactions in one step (spec/10, 05, 08, 12). -/

namespace Sys2Proof.Machine

/-! ## Requesters (R442) -/

/-- The world of a requester. The scheduler's own posted words carry their world with them (COMMIT_BUFFER_DELIVERY); as a
plain source it counts as non-secure. DEDUCED (log 19). -/
def State.asker (s : State) : Source → Asker
  | .host h => { kind := 0, index := h, world := s.hostWorld h, finder := some h, qos := some 6 }
  | .flow c => { kind := 1, index := c, world := (s.ctx c).world }
  | .sched h => { kind := 2, index := h, world := false }
  | .gate m => { kind := 3, index := m, world := (s.mea m).world }
  | .warden => { kind := 4, index := 0, world := true, qos := some 7 }
  | .engine e => { kind := 5, index := e, world := (s.eng e).world }
  | .debug => { kind := 6, index := 0, world := true, qos := some 7 }
  | .queue q => { kind := 7, index := q, world := s.qWorld q }

/-- The warden acting for a command of host `h` in the command's world (R253, R354). -/
def forCommand (h : Nat) (w : Bool) : Asker := { kind := 0, index := h, world := w, finder := some h, qos := some 7 }

/-- The warden's own accesses. -/
def wardenAsker : Asker := { kind := 4, index := 0, world := true, qos := some 7 }

/-- A transaction's refusal raises one DENIED event (R441). -/
def Got.report (g : Got) (a : Asker) : Got :=
  match g.res with
  | some (k, i) => if g.st = hsDenied then { g with s := g.s.deny a.kind a.index k i } else g
  | none => g

/-! ## Screed (R94-R97, R102, R213, R222) -/

/-- The hard path to a screed block is served: its gate is open and its column is ON. -/
def State.screedServed (s : State) (k : Nat) : Bool := (s.mea (k / 6)).gate.isOpen && decide ((s.mea (k / 6)).col = .on)

/-- Bytes `off … off + n` of a block as they stand: ERROR with a double-bit error in a lane, each reported; POISON with zero data
under the marker (R97, R207, R222). -/
def State.screedBytes (s : State) (k off n : Nat) : Got :=
  let offs := laneOffs off n
  let data := (List.range n).map fun i =>
    if s.screedMark k (off + i) = .poison then 0 else s.mem.screed.read (screedAddr k (off + i))
  let st := if offs.any fun o => s.screedMark k o = .bad then hsError else if offs.any fun o => s.screedMark k o = .poison then hsPoison else hsOk
  { s := s.screedReport k offs, st := st, data := if st = hsPoison then List.replicate n 0 else data }

/-- A read through the hard path. UNVERIFIED (log 13): R99's ERROR of a column that is not ON and R102's DENIED meet in no rule;
the column is judged first, so that such an access raises no DENIED event. -/
def State.screedRead (s : State) (a : Asker) (k off n : Nat) : Got :=
  if ¬ s.screedServed k then { s := s, st := hsError }
  else if (s.mea (k / 6)).screedWorld ∧ ¬ a.world then .denied s 4 (k / 6) n
  else s.screedBytes k off n

/-- The lanes in which a write under enables must merge: an alias write, or a normal one of one byte of the lane (R97). -/
def mergeOffs (off al : Nat) (be : List Bool) : List Nat :=
  (laneOffs off be.length).filter fun o =>
    let lo := be.getD (o - off) false
    let hi := be.getD (o + 1 - off) false
    (lo || hi) && (al ≠ 0 || !(lo && hi))

/-- A write through the hard path. A lane that must merge and holds a double-bit error is left alone and reported. -/
def State.screedPut (s : State) (a : Asker) (k off al : Nat) (data : List Byte) (be : List Bool) : Got :=
  if ¬ s.screedServed k then { s := s, st := hsError }
  else if (s.mea (k / 6)).screedWorld ∧ ¬ a.world then .denied s 4 (k / 6) 0
  else
    let (t, err) := (s.screedReport k (mergeOffs off al be)).screedWrite k off al data be
    { s := t, st := if err then hsError else hsOk }

/-! ## Buffers (R205, R215, R217, R221, R222, R255) -/

/-- Where a line of a buffer is served: the new placement below the copy boundary of its migration, else the old one; and whether
it is the old one (R221). -/
def State.bufAt (s : State) (h : Nat) (b : Buf) (off : Nat) : At × Bool :=
  match s.migOf h with
  | some m => if off / 4096 < m.bound then (m.dest.at off, false) else (b.place.at off, true)
  | none => (b.place.at off, true)

/-- 64 bytes whatever the status: what an answer without data holds is free. -/
def Got.whole (g : Got) (n : Nat) : Got :=
  if g.data.length = n then g
  else
    let (d, s) := g.s.drawBytes ((n + 7) / 8)
    { g with s := s, data := d.take n }

/-- Read 64 bytes of a buffer at a line offset. -/
def State.bufLineRead (s : State) (a : Asker) (h : Nat) (b : Buf) (off : Nat) : Got :=
  let port := a.qos.getD b.lat
  match s.bufAt h b off with
  | (.hbm pc la, old) =>
    let x := s.region (regionOf pc la)
    if old ∧ b.unfilled off ∧ ¬ x.lost ∧ ¬ (x.world ∧ ¬ a.world) then { s := s, data := List.replicate 64 0 }
    else (s.readLine a port pc la).whole 64
  | (.screed k o, _) => (s.screedRead a k o 64).whole 64
  | (.nowhere, _) => ({ s := s, st := hsError } : Got).whole 64

/-- Write 64 bytes of a buffer under byte enables at a line offset; a granule not yet filled is filled first. -/
def State.bufLineWrite (s : State) (a : Asker) (h : Nat) (b : Buf) (off : Nat) (data : List Byte) (be : List Bool) : Got :=
  let port := a.qos.getD b.lat
  match s.bufAt h b off with
  | (.hbm pc la, old) =>
    let x := s.region (regionOf pc la)
    let s := if old ∧ b.unfilled off ∧ ¬ x.lost ∧ ¬ (x.world ∧ ¬ a.world) then s.fillGran h (off / 4096) else s
    s.writeLine a port pc la data be
  | (.screed k o, _) => s.screedPut a k o 0 data be
  | (.nowhere, _) => { s := s, st := hsError }

/-- Why an access to a handle is not made at all: the handle, the world, the range. -/
def State.bufRefused (s : State) (a : Asker) (h off n : Nat) : Option (BitVec 3) :=
  match s.buf h with
  | none => some hsHandle
  | some b =>
    if b.isStore ∧ a.kind ≠ 4 then some hsDenied
    else if b.world ∧ ¬ a.world then some hsDenied
    else if 4096 * b.size < off + n ∨ 4096 * b.size ≤ off then some hsRange
    else none

/-- Line offsets that `n` bytes from `off` on touch. -/
def lineOffs (off n : Nat) : List Nat :=
  if n = 0 then [] else (List.range ((off + n - 1) / 64 - off / 64 + 1)).map fun i => 64 * (off / 64 + i)

/-- The 4 KiB ranges of a transfer: the source interface makes one transaction of each (R205). Offset and length. -/
def spans (off n : Nat) : List (Nat × Nat) :=
  if n = 0 then []
  else (List.range ((off + n - 1) / 4096 - off / 4096 + 1)).map fun i =>
    let a := max off (4096 * (off / 4096 + i))
    (a, min (off + n) (4096 * (off / 4096 + i + 1)) - a)

/-- What a read brings of each line: its status and data. -/
structure LineGot where
  st : BitVec 3
  data : List Byte
deriving DecidableEq, Repr

/-- The lines of one transaction, in order, with what refused one. -/
def State.bufLines (s : State) (a : Asker) (h : Nat) (b : Buf) (off n : Nat) : State × List LineGot × Option (Nat × Nat) :=
  (lineOffs off n).foldl (fun acc o =>
    let g := acc.1.bufLineRead a h b o
    let lo := off - o
    let hi := min 64 (off + n - o)
    (g.s, acc.2.1 ++ [{ st := g.st, data := (g.data.take hi).drop lo }], acc.2.2.orElse fun _ => g.res)) (s, [], none)

/-- The status of a transaction: the first of its lines that is not OK. -/
def lineStatus (l : List LineGot) : BitVec 3 := ((l.find? fun x => x.st ≠ hsOk).map (·.st)).getD hsOk

/-- One BREAD transaction, line by line; one that is refused whole has a single answer. -/
def State.bufFetch (s : State) (a : Asker) (h off n : Nat) : State × List LineGot :=
  match s.bufRefused a h off n, s.buf h with
  | some st, _ =>
    if st = hsDenied then (((Got.denied s 6 h n).report a).s, [{ st := st, data := List.replicate n 0 }])
    else (s, [{ st := st, data := [] }])
  | none, none => (s, [{ st := hsHandle, data := [] }])
  | none, some b =>
    let (t, l, res) := s.bufLines a h b off n
    ((({ s := t, st := lineStatus l, res := res } : Got).report a).s, l)

/-- The answer to one BREAD transaction. A read that ends DENIED or POISON gives zeros only (R207). -/
def State.bufReadOne (s : State) (a : Asker) (h off n : Nat) : Got :=
  let (t, l) := s.bufFetch a h off n
  let st := lineStatus l
  { s := t, st := st, data := if st = hsDenied ∨ st = hsPoison then List.replicate n 0 else l.flatMap (·.data) }

/-- The transactions of a BREAD, before the controllers serve the requests they make. -/
def State.bufReadAll (s : State) (a : Asker) (h off n : Nat) : Got :=
  (spans off n).foldl (fun g p => g.andThen fun s => s.bufReadOne a h p.1 p.2) ({ s := s } : Got)

/-- BREAD: `n` bytes from `off` on. -/
def State.bufRead (s : State) (a : Asker) (h off n : Nat) : Got :=
  let g := s.bufReadAll a h off n
  { g with s := g.s.serveAll }

/-- The bytes from `a` on, `n` of them, of a list that begins at offset `off`; `d` where it gives none. -/
def stretch {α : Type} (d : α) (l : List α) (off a n : Nat) : List α :=
  (List.range n).map fun i => if off ≤ a + i then l.getD (a + i - off) d else d

/-- One BWRITE transaction, of bytes that begin at `off`. With `keep` false, lines that could be written are left as they are:
what remains is what the failing ones bring about. -/
def State.bufWriteOne (s : State) (a : Asker) (keep : Bool) (h off : Nat) (data : List Byte) (be : List Bool) : Got :=
  match s.bufRefused a h off data.length, s.buf h with
  | some st, _ => if st = hsDenied then (Got.denied s 6 h 0).report a else { s := s, st := st }
  | none, none => { s := s, st := hsHandle }
  | none, some b =>
    ((lineOffs off data.length).foldl (fun g o => g.andThen fun s =>
      let e := stretch false be off o 64
      if e.any id then
        let g := s.bufLineWrite a h b o (stretch 0 data off o 64) e
        if g.st = hsOk ∧ ¬ keep then { g with s := s } else g
      else { s := s }) ({ s := s } : Got)).report a

/-- The transactions of a BWRITE, before the controllers serve the requests they make. -/
def State.bufWriteAll (s : State) (a : Asker) (keep : Bool) (h off : Nat) (data : List Byte) (be : List Bool) : Got :=
  (spans off data.length).foldl (fun g p => g.andThen fun s =>
    s.bufWriteOne a keep h p.1 ((data.drop (p.1 - off)).take p.2) ((be.drop (p.1 - off)).take p.2)) ({ s := s } : Got)

/-- BWRITE of bytes under enables from `off` on. -/
def State.bufWrite (s : State) (a : Asker) (h off : Nat) (data : List Byte) (be : List Bool) : Got :=
  let g := s.bufWriteAll a true h off data be
  { g with s := g.s.serveAll }

/-- A write through the aperture: dropped whole when it does not end OK (R225). -/
def State.apWrite (s : State) (a : Asker) (h off : Nat) (data : List Byte) (be : List Bool) : Got :=
  let g := s.bufWriteAll a true h off data be
  if g.st = hsOk then g else s.bufWriteAll a false h off data be

/-- A write with every byte enabled. -/
def State.bufPut (s : State) (a : Asker) (h off : Nat) (data : List Byte) : Got :=
  s.bufWrite a h off data (List.replicate data.length true)

/-! ## Engine data memory (R149-R153) and scratchpads (R103, R105) -/

def dmemAddr (e a : Nat) : Nat := 65536 * e + a
def dmemWordBad (s : State) (e a : Nat) : Bool := s.mem.dmemBad.get false (8192 * e + a / 8)

/-- The gate of an engine's row or of a unit is closed, so that its accesses read zero and drop writes (R207). -/
def State.rowGated (s : State) (e : Nat) : Bool := (s.row (e / 16)).gate = .gated

/-- The data-memory word is reported with its engine: block kind 2 (R151). -/
def State.dmemBadEvent (s : State) (e a : Nat) : State := s.memUncorrectable 2 e (a / 8) 0

/-- An external access may hold up the engine that runs a task, by at most one cycle for each word (R150). How often is free.
CYCLES does not count while the engine is halted (R154). -/
def State.extDelay (s : State) (e words : Nat) : State :=
  if (s.eng e).task.isSome ∧ (s.eng e).st ≠ .halted then
    let (v, s) := s.draw
    s.updEng e fun x => { x with cycles := x.cycles + v.toNat % (words + 1) }
  else s

/-- A write to the reserved word by another than the engine's STX cancels the reservation, and with it the locked sequence
(R173, R174). -/
def State.cancelResv (s : State) (e word : Nat) : State :=
  if (s.eng e).resv = some word then s.updEng e fun x => { x with resv := none, locked := false } else s

def State.dmemRead (s : State) (a : Asker) (e off n : Nat) : Got :=
  if (s.row (e / 16)).world ∧ ¬ a.world then .denied s 3 (e / 16) n
  else if s.rowGated e then { s := s, data := List.replicate n 0 }
  else if 196608 ≤ off then { s := s, st := hsError, data := List.replicate n 0 }
  else
    let o := off % 65536
    let bad := ((List.range ((n + 7) / 8)).map fun i => o + 8 * i).filter (dmemWordBad s e)
    let t := (each bad (fun b s => s.dmemBadEvent e b) s).extDelay e ((n + 7) / 8)
    { s := t, st := if bad = [] then hsOk else hsError, data := s.mem.dmem.readN (dmemAddr e o) n }

/-- The new contents of a byte under an alias: normal, bit-set, bit-clear (R95). -/
def aliasByte (al : Nat) (old new : Byte) : Byte := if al = 1 then old ||| new else if al = 2 then old &&& ~~~new else new

/-- One word of data memory under byte enables: not performed when it must merge with an uncorrectable word. -/
def State.dmemWord (s : State) (e o al : Nat) (data : List Byte) (be : List Bool) : State × Bool :=
  if ¬ be.any id then (s, false)
  else
    let whole := al = 0 && be.all id && be.length = 8
    if ¬ whole ∧ dmemWordBad s e o then (s.dmemBadEvent e o, true)
    else
      let old := s.mem.dmem.readN (dmemAddr e o) 8
      let new := List.zipWith (aliasByte al) old data
      (({ s with mem.dmem := s.mem.dmem.writeN (dmemAddr e o) (merge old new be),
                 mem.dmemBad := s.mem.dmemBad.set false (8192 * e + o / 8) false }).cancelResv e (o / 8), false)

def State.dmemWrite (s : State) (a : Asker) (e off : Nat) (data : List Byte) (be : List Bool) : Got :=
  if (s.row (e / 16)).world ∧ ¬ a.world then .denied s 3 (e / 16) 0
  else if s.rowGated e then { s := s }
  else if 196608 ≤ off then { s := s, st := hsError }
  else
    let o := off % 65536
    let (t, err) := (List.range (data.length / 8)).foldl (fun (acc : State × Bool) i =>
      let r := acc.1.dmemWord e (o + 8 * i) (off / 65536) ((data.drop (8 * i)).take 8) ((be.drop (8 * i)).take 8)
      (r.1, acc.2 || r.2)) (s, false)
    { s := t.extDelay e (data.length / 8), st := if err then hsError else hsOk }

def padAddr (p off : Nat) : Nat := 2097152 * p + off

/-- During a wipe reads return zero and writes are dropped; in LOCKDOWN the scratchpads have no power (R105). -/
def State.padRead (s : State) (a : Asker) (p off n : Nat) : Got :=
  if ¬ a.world then .denied s 8 p n
  else if s.mem.padOff then { s := s, st := hsError }
  else if s.mem.wiping then { s := s, data := List.replicate n 0 }
  else
    let bad := ((List.range ((n + 7) / 8)).map fun i => off / 8 + i).filter fun w => s.mem.padBad.get false (262144 * p + w)
    { s := each bad (fun w s => s.memUncorrectable 3 p w 0) s, st := if bad = [] then hsOk else hsError
      data := s.mem.pad.readN (padAddr p off) n }

def State.padWrite (s : State) (a : Asker) (p off : Nat) (data : List Byte) (be : List Bool) : Got :=
  if ¬ a.world then .denied s 8 p 0
  else if s.mem.padOff then { s := s, st := hsError }
  else if s.mem.wiping then { s := s }
  else
    let (t, err) := (List.range (data.length / 8)).foldl (fun (acc : State × Bool) i =>
      let w := off / 8 + i
      let e := (be.drop (8 * i)).take 8
      let bad := acc.1.mem.padBad.get false (262144 * p + w)
      if ¬ e.any id then acc
      else if bad ∧ ¬ e.all id then (acc.1.memUncorrectable 3 p w 0, true)
      else ({ acc.1 with mem.pad := acc.1.mem.pad.writeBe (padAddr p (8 * w)) ((data.drop (8 * i)).take 8) e,
                         mem.padBad := acc.1.mem.padBad.set false (262144 * p + w) false }, acc.2)) (s, false)
    { s := t, st := if err then hsError else hsOk }

/-! ## Direct addresses (R206) -/

/-- A direct address: kind, index, offset; none when it ends with RANGE. -/
def directAddr (addr : Nat) : Option (Nat × Nat × Nat) :=
  let k := fld addr 37 4
  let i := fld addr 21 16
  let lim := if k = 1 then 1152 else if k = 2 then 512 else if k = 3 then 192 else if k = 4 then 5 else 0
  if fld addr 41 15 = 0 ∧ i < lim then some (k, i, fld addr 0 21) else none

/-- Bytes of a kind's window. -/
def directWin (k : Nat) : Nat := if k = 4 then 2097152 else 262144

/-- A screed block is reached by direct addresses and holds buffers: port B belongs to the gate (R94). -/
def State.screedWin (s : State) (k : Nat) : Bool := (s.screedCfg k).bGate

/-- One transaction of a DREAD of a screed block, data memory or scratchpad, inside one 4 KiB range, so under one alias. -/
def State.directReadOne (s : State) (a : Asker) (k i o n : Nat) : Got :=
  if directWin k < o + n then { s := s, st := hsRange }
  else
    (match k with
     | 1 =>
       if ¬ s.screedWin i then { s := s, st := hsRange }
       else if 196608 ≤ o ∧ s.screedServed i ∧ ¬ ((s.mea (i / 6)).screedWorld ∧ ¬ a.world) then
         { s := s, st := hsError, data := List.replicate n 0 }
       else s.screedRead a i (o % 65536) n
     | 2 => s.dmemRead a i o n
     | _ => s.padRead a i o n : Got).report a

/-- DREAD of a screed block, data memory or scratchpad, split at 4 KiB ranges (R205). Kind 3 is the caller's. -/
def State.directRead (s : State) (a : Asker) (k i o n : Nat) : Got :=
  (spans o n).foldl (fun g p => g.andThen fun s => s.directReadOne a k i p.1 p.2) ({ s := s } : Got)

def State.directWriteOne (s : State) (a : Asker) (k i o : Nat) (data : List Byte) (be : List Bool) : Got :=
  if directWin k < o + data.length then { s := s, st := hsRange }
  else
    (match k with
     | 1 =>
       if ¬ s.screedWin i then { s := s, st := hsRange }
       else if 196608 ≤ o ∧ s.screedServed i ∧ ¬ ((s.mea (i / 6)).screedWorld ∧ ¬ a.world) then { s := s, st := hsError }
       else s.screedPut a i (o % 65536) (o / 65536) data be
     | 2 => s.dmemWrite a i o data be
     | _ => s.padWrite a i o data be : Got).report a

def State.directWrite (s : State) (a : Asker) (k i o : Nat) (data : List Byte) (be : List Bool) : Got :=
  (spans o data.length).foldl (fun g p => g.andThen fun s =>
    s.directWriteOne a k i p.1 ((data.drop (p.1 - o)).take p.2) ((be.drop (p.1 - o)).take p.2)) ({ s := s } : Got)

/-! ## Parameter blocks (R354) -/

/-- The `n` bytes of the parameter block that an argument word names, read for a command of host `h`; or the answer that
refuses the command: DENIED for a buffer out of its reach, BAD_ARG with CAUSE 0xFFFF for a read that is not OK. -/
def readBlock (s : State) (h : Nat) (c : Cmd) (word n : Nat) : State × Except Ans (List Byte) :=
  let w := c.arg word
  let g := s.bufRead (forCommand h c.world) (fld w 0 20) (fld w 20 36) n
  if g.st = hsOk then (g.s, .ok g.data)
  else if g.st = hsDenied then (g.s, .error { s := g.s, status := stDenied })
  else (g.s, .error { s := g.s, status := stBadArg, cause := 0xFFFF })

end Sys2Proof.Machine
end

