-- ==== Sys2Proof/Machine/Pool.lean ====
section
/-! DEFINITION. The pool manager (spec/10_hedgerow_and_pool.md): classes, buffers, placement, migration, the pool aperture. -/

namespace Sys2Proof.Machine

def State.cls (s : State) (k : Nat) : Option Cls := s.pool.cls.get none k

/-! ## Placement (R218) -/

/-- Channels of a placement by bandwidth class (rule 3). -/
def bwChans (b : Nat) : Nat := if b = 7 then 4 else if b = 6 then 2 else 1
/-- The share of one channel in units of 0.5 GB/s. -/
def bwShare (b : Nat) : Nat := if b = 0 then 0 else 2 ^ (b - 1) / bwChans b
/-- 40.96 GB/s in the same units, rounded down: every share is a whole number of them. -/
def bwLimit : Nat := 81

/-- Committed bandwidth of a pseudo-channel: every placement on it, a migration's new one too. -/
def State.committed (s : State) (pc : Nat) : Nat :=
  let a := s.pool.buf.ents.map fun (_, b) => match b with
    | some b => if b.place.chans.contains pc then bwShare b.bw else 0
    | none => 0
  let b := s.pool.mig.map fun m => match s.buf m.handle with
    | some b => if m.dest.chans.contains pc then bwShare b.bw else 0
    | none => 0
  a.foldl (· + ·) 0 + b.foldl (· + ·) 0

/-- The pool manager places buffers on the channel: served, no retrain queued or running, not excluded (rule 4, R239). -/
def State.placeable (s : State) (pc : Nat) : Bool :=
  (s.pch pc).serves && (s.pch pc).retrains.isEmpty && !s.pool.excl.contains pc

/-- A granule may take a buffer of world `w`: its region has that world, and no placement holds it (rule 2). -/
def State.granFree (s : State) (w : Bool) (pc g : Nat) : Bool :=
  decide ((s.region (regionOf pc (64 * g))).world = w) && !(s.heldGrans pc).contains g

/-- Granules of `pc` free for world `w`. -/
def State.freeCount (s : State) (w : Bool) (pc : Nat) : Nat :=
  let regions := (List.range 128).filter fun r => (s.region (128 * (pc / 16) + r)).world = w
  3072 * regions.length - ((s.heldGrans pc).filter fun g => (s.region (regionOf pc (64 * g))).world = w).length

/-- Choices of `k` elements of a list, in lexicographic order. -/
def combos : Nat → List Nat → List (List Nat)
  | 0, _ => [[]]
  | _ + 1, [] => []
  | k + 1, x :: r => (combos k r).map (x :: ·) ++ combos (k + 1) r

/-- The channel set of rule 4: lowest resulting maximum, ties to stack 0 and then to the lower numbers. -/
def State.chanSet (s : State) (w : Bool) (bw need : Nat) (old : List Nat) : Option (List Nat) :=
  let ok := fun st => ((List.range 16).map (16 * st + ·)).filter fun pc =>
    s.placeable pc && !old.contains pc && decide (s.committed pc + bwShare bw ≤ bwLimit) && decide (need ≤ s.freeCount w pc)
  let sets := combos (bwChans bw) (ok 0) ++ combos (bwChans bw) (ok 1)
  let load := fun l : List Nat => (l.map s.committed).foldl max 0
  sets.foldl (fun best l => match best with
    | none => some l
    | some b => if load l < load b then some l else best) none

/-- The first granule from `start` on, cyclically, that `ok` accepts. -/
def findGran (start : Nat) (ok : Nat → Bool) : Option Nat :=
  ((List.range chanGrans).map fun i => (start + i) % chanGrans).find? ok

/-- `n` granules on a channel: each free, and in other banks than the one before where such a granule exists (rule 5). Where
the search for each begins is free (log 15). -/
def State.takeGrans (s : State) (w : Bool) (pc : Nat) : Nat → List Nat → Option (List Nat × State)
  | 0, acc => some (acc.reverse, s)
  | n + 1, acc =>
    let free := fun g => s.granFree w pc g && !acc.contains g
    let far := fun g => match acc with
      | p :: _ => ((s.pch pc).granBanks g).all fun b => !((s.pch pc).granBanks p).contains b
      | [] => true
    let start := Config.granuleStart s.free
    match (findGran start fun g => free g && far g).orElse fun _ => findGran start free with
    | some g => ({ s with free := s.free + 1 }).takeGrans w pc n (g :: acc)
    | none => none

/-- A placement in HBM. -/
def State.placeHbm (s : State) (w : Bool) (bw lat n : Nat) (old : List Nat) : Option (Place × State) :=
  let need := (n + bwChans bw - 1) / bwChans bw
  match s.chanSet w bw need old with
  | none => none
  | some cs =>
    let r := cs.foldl (fun (acc : Option (List (Nat × List Nat) × State)) pc =>
      match acc with
      | some (l, s) => (s.takeGrans w pc need []).map fun r => (l ++ [(pc, r.1)], r.2)
      | none => none) (some ([], s))
    r.map fun r => (.hbm (if lat = 3 then 256 else 1024) r.1, r.2)

/-- Granules of screed block `k` that placements hold. -/
def State.screedHeld (s : State) (k : Nat) : List Nat :=
  let of := fun p : Place => match p with | .screed gs => (gs.filter fun x => x.1 = k).map (·.2) | .hbm _ _ => []
  (s.pool.buf.ents.flatMap fun e => match e.2 with | some b => of b.place | none => []) ++ s.pool.mig.flatMap fun m => of m.dest

/-- A block that screed placements of world `w` may use (rule 2). -/
def State.screedOk (s : State) (w : Bool) (k : Nat) : Bool :=
  s.screedWin k && decide ((s.mea (k / 6)).screedWorld = w) && decide ((s.mea (k / 6)).col = .on)

/-- `n` screed granules, round-robin from the block after the last (rule 6); the granule inside a block is free. -/
def State.takeScreed (s : State) (w : Bool) : Nat → List (Nat × Nat) → Option (List (Nat × Nat) × State)
  | 0, acc => some (acc.reverse, s)
  | n + 1, acc =>
    let freeIn := fun k => (List.range 16).filter fun g => !(s.screedHeld k).contains g && !acc.contains (k, g)
    let order := (List.range 1152).map fun i => (s.pool.lastScreed + 1 + i) % 1152
    match order.find? fun k => s.screedOk w k && !(freeIn k).isEmpty with
    | some k =>
      let l := freeIn k
      let g := l.getD (Config.granuleStart s.free % l.length) 0
      ({ s with free := s.free + 1, pool.lastScreed := k }).takeScreed w n ((k, g) :: acc)
    | none => none

def State.placeScreed (s : State) (w : Bool) (n : Nat) : Option (Place × State) :=
  (s.takeScreed w n []).map fun r => (.screed r.1, r.2)

/-- A placement by rules 1 to 7; `old` lists the channels a migration leaves. -/
def State.place (s : State) (pref : Nat) (w : Bool) (bw lat n : Nat) (old : List Nat) : Option (Place × State) :=
  if pref = 0 then s.placeHbm w bw lat n old
  else if pref = 1 then s.placeScreed w n
  else if lat = 3 ∧ n ≤ 1024 then (s.placeScreed w n).orElse fun _ => s.placeHbm w bw lat n old
  else s.placeHbm w bw lat n old

/-! ## Classes and buffers (R215-R217, R255) -/

def poolClassDefine (s : State) (h : Nat) (c : Cmd) : Ans :=
  let k := c.f 0 0 8
  let w := c.f 0 16 1 = 1
  if w ∧ h ≠ s.pwr.owner then .denied s h c
  else if s.pool.buf.ents.any fun e => match e.2 with | some b => b.cls = k && !b.isStore | none => false then .busy s
  else
    { s := { s with pool.cls := s.pool.cls.set none k (some
        { size := c.f 1 0 19, bw := c.f 0 8 3, lat := c.f 0 12 2, world := w, pref := c.f 0 20 2 }) } }

def execPoolClassDefine (h : HostId) (s : State) : Res := runCmd h 0x0601 anyCmd poolClassDefine s

/-- The next handle: one never given, else the one freed longest ago (R215). -/
def State.takeHandle (s : State) : Option (Nat × State) :=
  if s.pool.fresh < 2 ^ 20 then some (s.pool.fresh, { s with pool.fresh := s.pool.fresh + 1 })
  else
    match s.pool.freed with
    | h :: r => some (h, { s with pool.freed := r })
    | [] => none

/-- Create a buffer. An HBM buffer reads as zero and is filled behind the command (R255). -/
def State.alloc (s : State) (cls : Nat) (x : Cls) (store : Bool) : Option (Nat × State) :=
  match s.place x.pref x.world x.bw x.lat x.size [] with
  | none => none
  | some (p, s) =>
    match s.takeHandle with
    | none => none
    | some (h, s) =>
      some (h, s.setBuf h (some { cls := cls, size := x.size, bw := x.bw, lat := x.lat, world := x.world, place := p,
                                  fill := if p.isHbm then some [] else none, isStore := store }))

def bufferAlloc (s : State) (h : Nat) (c : Cmd) : Ans :=
  let k := c.f 0 0 8
  match s.cls k with
  | none => .bad s 0 0
  | some x =>
    if ¬ reaches c.world x.world then .denied s h c
    else
      match s.alloc k x false with
      | some (hd, s) => { s := s, res := [hd] }
      | none => .noRes s

def execBufferAlloc (h : HostId) (s : State) : Res := runCmd h 0x0602 anyCmd bufferAlloc s

/-- The buffer a command names, when its host may: unallocated handles are BAD_ARG, another world's or the warden's DENIED. -/
def namedBuf (s : State) (h : Nat) (c : Cmd) (word : Nat) (f : Nat → Buf → Ans) : Ans :=
  let hd := c.f word 0 20
  match s.buf hd with
  | none => .bad s word 0
  | some b => if b.isStore ∨ ¬ reaches c.world b.world then .denied s h c else f hd b

/-- Handle `hd` has left the channels that POOL_EXCLUDE commands empty: those that wait for no other handle end OK. -/
def State.moved (s : State) (hd : Nat) : State :=
  let l := s.pool.moves.map fun m => (m.1, m.2.erase hd)
  let s := { s with pool.moves := l.filter fun m => !m.2.isEmpty }
  each (l.filter fun m => m.2.isEmpty) (fun m s => s.finish m.1 stOk) s

/-- Release a buffer: its fill and its migrations stop, both copies go, every cached translation goes (R217, R255). -/
def State.freeBuf (s : State) (hd : Nat) : State :=
  let cmds := (s.pool.mig.filter fun m => m.handle = hd).flatMap (·.cmds)
  let s := s.setBuf hd none
  let s := { s with
    pool.freed := s.pool.freed ++ [hd], pool.mig := s.pool.mig.filter fun m => m.handle ≠ hd
    hg.cache := s.hg.cache.filter fun e => e.2.2 ≠ hd }
  (each cmds (fun b s => s.finish b stAborted) s).moved hd

/-- A slice of any host's aperture maps the buffer. -/
def State.apertured (s : State) (hd : Nat) : Bool :=
  s.pool.slice.ents.any fun e => match e.2 with | some (x, _) => x = hd | none => false

def execBufferFree (h : HostId) (s : State) : Res :=
  runCmd h 0x0603 anyCmd (fun s h c => namedBuf s h c 0 fun hd _ =>
    if s.apertured hd then .busy s else { s := s.freeBuf hd }) s

def execBufferQuery (h : HostId) (s : State) : Res :=
  runCmd h 0x0605 anyCmd (fun s h c => namedBuf s h c 0 fun hd b =>
    { s := s, res := [Config.resultWord 0x0605 0 [b.cls, b.size],
        Config.resultWord 0x0605 1 (bit b.place.isHbm :: (if b.place.isHbm then b.place.chans else b.place.blocks)),
        bit (s.migOf hd).isSome] }) s

/-! ## Migration (R220-R223) -/

/-- Plan the move of one buffer away from the channels it holds, or will hold behind a migration under way, and from `bar`. -/
def State.planMove (s : State) (hd : Nat) (bar : List Nat) (cmds : List Bg) : Option State :=
  match s.buf hd with
  | none => none
  | some b =>
    let pref := match s.cls b.cls with | some c => if b.isStore then 0 else c.pref | none => 0
    let old := (((s.pool.mig.filter fun m => m.handle = hd).getLast?).map (·.dest)).getD b.place
    (s.place pref b.world b.bw b.lat b.size (old.chans ++ bar)).map fun r =>
      { r.2 with pool.mig := r.2.pool.mig ++ [{ handle := hd, dest := r.1, bound := 0, cmds := cmds }] }

/-- Replace the first migration of a handle. -/
def setMig (hd : Nat) (f : Migration → Migration) : List Migration → List Migration
  | [] => []
  | m :: r => if m.handle = hd then f m :: r else m :: setMig hd f r

/-- BUFFER_MIGRATE: a buffer already migrating starts no second one (R220). -/
def execBufferMigrate (h : HostId) (s : State) : Res :=
  runCmd h 0x0604 anyCmd (fun s h c => namedBuf s h c 0 fun hd _ =>
    match s.migOf hd with
    | some _ =>
      -- the first migration of the handle carries the command
      .queued { s with pool.mig := setMig hd (fun m => { m with cmds := m.cmds ++ [c.bg h] }) s.pool.mig }
    | none =>
      match s.planMove hd [] [c.bg h] with
      | some s => .queued s
      | none => .noRes s) s

/-- Handles whose buffer, or a migration's new copy of it, lies on channel `pc`. -/
def State.handlesOn (s : State) (pc : Nat) : List Nat :=
  (((s.pool.buf.ents.filter fun e => match e.2 with | some b => b.place.chans.contains pc | none => false).map (·.1)) ++
    ((s.pool.mig.filter fun m => m.dest.chans.contains pc).map (·.handle))).dedup

/-- The last of the migrations that run or wait for the buffer leaves it off channel `pc`. -/
def State.leaving (s : State) (pc hd : Nat) : Bool :=
  ((s.pool.mig.filter fun m => m.handle = hd).getLast?).any fun m => !m.dest.chans.contains pc

/-- Plan the move of every buffer on `pc` that is not leaving it already, none of them back to it (R240); none when one of them
has no placement. -/
def State.planAll (s : State) (pc : Nat) : Option State :=
  ((s.handlesOn pc).filter fun hd => !s.leaving pc hd).foldl (fun acc hd => acc.bind fun s => s.planMove hd [pc] []) (some s)

/-- POOL_EXCLUDE with [8] = 1 (R220): the exclusion stands whatever the outcome. -/
def poolExclude (s : State) (h : Nat) (c : Cmd) : Ans :=
  let pc := c.f 0 0 5
  if s.pool.excl.contains pc then .ignored s
  else
    let s := { s with pool.excl := pc :: s.pool.excl }
    let l := s.handlesOn pc
    if l.isEmpty then { s := s }
    else
      match s.planAll pc with
      | some t => .queued { t with pool.moves := t.pool.moves ++ [(c.bg h, l)] }
      | none => .noRes s

def execPoolExclude (h : HostId) (s : State) : Res := runCmd h 0x0606 (fun c => c.f 0 8 1 = 1) poolExclude s

/-- POOL_EXCLUDE with [8] = 0. -/
def poolExcludeLift (s : State) (_ : Nat) (c : Cmd) : Ans :=
  let pc := c.f 0 0 5
  if s.pool.excl.contains pc then { s := { s with pool.excl := s.pool.excl.erase pc } } else .ignored s

def execPoolExcludeLift (h : HostId) (s : State) : Res := runCmd h 0x0606 (fun c => c.f 0 8 1 = 0) poolExcludeLift s

/-- Put 64 bytes at a new placement, or the poison marker there (R222). A lost region takes no write: its line ends poisoned
(R264). -/
def Got.copyLine (g : Got) (dest : At) : State :=
  match dest with
  | .hbm pc la =>
    let s := g.s.request pc 4 la true none
    if g.st = hsOk ∧ ¬ (s.region (regionOf pc la)).lost then s.putLine pc la g.data else s.poisonLine none pc la pcOther
  | .screed k o =>
    let s := g.s
    if g.st = hsOk then
      { s with
        mem.screed := s.mem.screed.writeN (screedAddr k o) g.data
        mem.screedMark := s.mem.screedMark.setFrom .ok (screedKey k o) (List.replicate 32 .ok) }
    else { s with mem.screedMark := s.mem.screedMark.setFrom .ok (screedKey k o) (List.replicate 32 .poison) }
  | .nowhere => g.s

/-- The copy's read of a line at the old placement: no world check, and no finding host (R222, R253). -/
def State.copyRead (s : State) (b : Buf) (off : Nat) : Got :=
  match b.place.at off with
  | .hbm pc la =>
    if b.unfilled off ∧ ¬ (s.region (regionOf pc la)).lost then { s := s, data := List.replicate 64 0 }
    else s.readLine { kind := 4, index := 0, world := true, qos := some 4 } 4 pc la
  | .screed k o =>
    s.screedBytes k o 64
  | .nowhere => { s := s, st := hsError }

/-- MIGRATION_STEP: one granule of one of the four migrations that run is copied and the boundary passes it (R221). -/
def execMigrationStep (hd : Nat) (s : State) : Res :=
  match (s.pool.mig.take 4).find? fun m => m.handle = hd, s.buf hd with
  | some m, some b =>
    if s.pwr.mode = .hold ∨ b.size ≤ m.bound then .next s
    else if ¬ b.place.exists_ ∨ ¬ m.dest.exists_ then .fault .noSuchLine
    else
      let s := (each (granOffs m.bound) (fun o s => (s.copyRead b o).copyLine (m.dest.at o)) s).serveAll
      .next { s with pool.mig := setMig hd (fun m => { m with bound := m.bound + 1 }) s.pool.mig }
  | _, _ => .next s

/-- Remove the first migration of a handle. -/
def dropMig (hd : Nat) : List Migration → List Migration
  | [] => []
  | m :: r => if m.handle = hd then r else m :: dropMig hd r

/-- MIGRATION_COMPLETE: the translation points at the new placement, the old granules are released, the commands end. -/
def execMigrationComplete (hd : Nat) (s : State) : Res :=
  match (s.pool.mig.take 4).find? fun m => m.handle = hd, s.buf hd with
  | some m, some b =>
    if m.bound < b.size then .next s
    else
      let s := s.setBuf hd (some { b with place := m.dest, fill := none })
      let s := { s with pool.mig := dropMig hd s.pool.mig, hg.cache := s.hg.cache.filter fun e => e.2.2 ≠ hd }
      let s := each m.cmds (fun c s => s.finish c stOk) s
      -- a second move of the same handle keeps its commands waiting
      .next (if (s.migOf hd).isSome then s else s.moved hd)
  | _, _ => .next s

/-! ## Handle translation (R217) -/

/-- HANDLE_TRANSLATION_MISS: the pool manager resolves the handle and the interface caches it, 256 entries at most, the
oldest leaving. -/
def execHandleTranslationMiss (who : Source) (hd : Nat) (s : State) : Res :=
  let a := s.asker who
  let mine := fun e : Nat × Nat × Nat => e.1 = a.kind && e.2.1 = a.index
  if (s.buf hd).isNone ∨ s.hg.cache.contains (a.kind, a.index, hd) then .next s
  else
    let l := s.hg.cache
    let l := if 256 ≤ (l.filter mine).length then
        match l.find? mine with | some e => l.erase e | none => l
      else l
    .next { s with hg.cache := l ++ [(a.kind, a.index, hd)] }

/-! ## Pool aperture (R224-R226) -/

def sliceRun (h : Nat) (c : Cmd) : List Nat := (List.range (c.f 0 16 10)).map fun i => 1024 * h + c.f 0 0 10 + i

def State.sliceAt (s : State) (k : Nat) : Option (Nat × Nat) := s.pool.slice.get none k

/-- APERTURE_MAP: successive slices map successive 64 MiB of the buffer. -/
def execApertureMap (h : HostId) (s : State) : Res :=
  runCmd h 0x0607 anyCmd (fun s h c => namedBuf s h c 1 fun hd _ =>
    if (sliceRun h c).any fun k => (s.sliceAt k).isSome then .busy s
    else
      let l := (List.range (c.f 0 16 10)).map fun i => some (hd, c.f 1 20 36 + 2 ^ 26 * i)
      { s := { s with pool.slice := s.pool.slice.setFrom none (1024 * h + c.f 0 0 10) l } }) s

/-- APERTURE_UNMAP: IGNORED when no slice of the run is mapped. DEDUCED (log 14). -/
def apertureUnmap (s : State) (h : Nat) (c : Cmd) : Ans :=
  if (sliceRun h c).any fun k => (s.sliceAt k).isSome then
    let l := List.replicate (c.f 0 16 10) none
    { s := { s with pool.slice := s.pool.slice.setFrom none (1024 * h + c.f 0 0 10) l } }
  else .ignored s

def execApertureUnmap (h : HostId) (s : State) : Res := runCmd h 0x0608 anyCmd apertureUnmap s

/-- APERTURE_QUERY: six slices from the first; beyond slice 1,023 nothing is bound. -/
def apertureQuery (s : State) (h : Nat) (c : Cmd) : Ans :=
  { s := s, res := (List.range 6).map fun i =>
      let k := c.f 0 0 10 + i
      match (if k < 1024 then s.sliceAt (1024 * h + k) else none) with
      | some (hd, off) => Config.resultWord 0x0609 i [1, hd, off]
      | none => Config.resultWord 0x0609 i [0] }

def execApertureQuery (h : HostId) (s : State) : Res := runCmd h 0x0609 anyCmd apertureQuery s

end Sys2Proof.Machine
end

