-- ==== Sys2Proof/Machine/Hbm.lean ====
section
/-! DEFINITION. The HBM controllers (spec/11_hbm_controllers.md). -/

namespace Sys2Proof.Machine

/-- A live buffer lies on the pseudo-channel. -/
def State.chanLive (s : State) (pc : Nat) : Bool := !(s.handlesOn pc).isEmpty

/-! ## HBM_MAP_SET, HBM_QOS_SET, HBM_SR_SET (R230-R232, R237) -/

/-- Bits set in a mask. -/
def popCount : Nat → Nat → Nat
  | 0, _ => 0
  | n + 1, v => v % 2 + popCount n (v / 2)

/-- A mask of bank bit `b` that HBM_MAP_SET accepts (R231). -/
def maskOk (b m : Nat) : Bool := popCount 25 m ≤ 8 && fld m 5 4 = 2 ^ b

def hbmMapSet (s : State) (_ : Nat) (c : Cmd) : Ans :=
  let pc := c.f 0 0 5
  let m := fun b => c.f (b + 1) 0 25
  match [0, 1, 2, 3].find? fun b => !maskOk b (m b) with
  | some b => .bad s (b + 1) 0
  | none =>
    if s.chanLive pc then .busy s
    else
      let v := fun b => BitVec.ofNat 25 (m b)
      { s := s.updPch pc fun x => { x with map := some (v 0, v 1, v 2, v 3) } }

def execHbmMapSet (h : HostId) (s : State) : Res := runCmd h 0x0701 anyCmd hbmMapSet s

def hbmQosSet (s : State) (_ : Nat) (c : Cmd) : Ans :=
  let p := c.f 0 8 3
  if 1 ≤ p ∧ p ≤ 3 then .bad s 0 8
  else { s := s.updPch (c.f 0 0 5) fun x => { x with qos := x.qos.set none p (some (BitVec.ofNat 16 (c.f 1 0 16))) } }

def execHbmQosSet (h : HostId) (s : State) : Res := runCmd h 0x0702 anyCmd hbmQosSet s

def hbmSrSet (s : State) (_ : Nat) (c : Cmd) : Ans :=
  { s := s.updPch (c.f 0 0 5) fun x => { x with srIdle := c.f 1 0 20 } }

def execHbmSrSet (h : HostId) (s : State) : Res := runCmd h 0x0703 anyCmd hbmSrSet s

/-! ## Retraining (R240, R241) -/

/-- HBM_RETRAIN (R240). -/
def hbmRetrain (s : State) (h : Nat) (c : Cmd) : Ans :=
  let pc := c.f 0 0 5
  let first := c.f 0 8 1 = 1
  let x := s.pch pc
  let job := fun (s : State) (q : Bool) => s.updPch pc fun y => { y with retrains := y.retrains ++ [(c.bg h, q)] }
  if s.chanLive pc ∧ ¬ first then .busy s
  else if s.chanLive pc then
    match s.planAll pc with
    | some t => .queued (job t true)
    | none => { s := s, status := stQueued, fin := some (stNoResource, 0) }
  else if ¬ x.retrains.isEmpty then .queued (job s true)
  else { s := job s false, wait := true }

def execHbmRetrain (h : HostId) (s : State) : Res := runCmd h 0x0704 anyCmd hbmRetrain s

/-- HBM_RETRAIN_RUN: the retrain runs once the pseudo-channel holds no live buffer. From self-refresh it does not run before
HBM_SELF_REFRESH_EXIT has ended that: exit first (R240). -/
def execHbmRetrainRun (p : ChanId) (s : State) : Res :=
  let x := s.pch p
  if x.retrains.isEmpty ∨ x.st = .retraining ∨ x.st = .selfRefresh ∨ x.st = .untrained ∨ s.chanLive p ∨ s.pwr.mode = .hold then .next s
  else .next (s.setPch p { x with st := .retraining })

/-- HBM_CHANNEL_FAILED (R239). -/
def State.chanFailed (s : State) (pc : Nat) : State := s.ownerEvent 0x0701 [pc]

/-- HBM_RETRAIN_DONE: the pseudo-channel is ACTIVE or FAILED, and the command ends. -/
def execHbmRetrainDone (p : ChanId) (ok : Bool) (spares : BitVec 8) (s : State) : Res :=
  let x := s.pch p
  match x.retrains with
  | (b, queued) :: rest =>
    if x.st ≠ .retraining then .next s
    else
      let s := s.setPch p { x with st := if ok then .active else .failed, spares := spares, retrains := rest }
      let s := if ok then s else s.chanFailed p
      let st := if ok then stOk else stFailed
      .next (if queued then s.finish b st else s.replyTo b.host b.seq fun s => { s := s, status := st })
  | [] => .next s

/-! ## Refresh, calibration, self-refresh, patrol (R235-R237, R242, R244-R246) -/

/-- The bank holds a request of urgency 3 (R235). -/
def State.bankUrgent (s : State) (pc bank : Nat) : Bool :=
  let x := s.pch pc
  (accepted x.reqs).any fun r => x.bank r.la = bank && urgency (s.target pc r) (r.age s.tl.up) = 3

/-- HBM_REFRESH: the next bank in turn, whose row closes. A refresh whose bank holds a request of urgency 3 is put off, by four
intervals at most, behind which it goes before every request (rule 1 of R234). The first refresh slot after coast begins or ends
switches the training results (R242). -/
def execHbmRefresh (p : ChanId) (s : State) : Res :=
  let x := s.pch p
  if x.st ≠ .active then .next s
  else
    let n := x.postponed.get 0 x.refBank
    let bank := x.refBank
    let x := { x with refBank := (x.refBank + 1) % 48, coast := s.clk.coast }
    if n < 4 ∧ s.bankUrgent p bank then .next (s.setPch p { x with postponed := x.postponed.set 0 bank (n + 1) })
    else .next (s.setPch p { x with postponed := x.postponed.set 0 bank 0, rows := x.rows.set none bank none })

/-- HBM_CALIBRATION: a slot in which nothing is served; requests keep their place. -/
def execHbmCalibration (_ : ChanId) (s : State) : Res := .next s

/-- HBM_TEMPERATURE_READ: HOT above 85 C, cleared below 80 C. -/
def execHbmTemperatureRead (st : StackId) (celsius : Int) (s : State) : Res :=
  .next (each (List.range 16) (fun i s => s.updPch (16 * st.val + i) fun x =>
    { x with hot := if 85 < celsius then true else if celsius < 80 then false else x.hot }) s)

/-- HBM_CE_INTERVAL: TL_NS has passed zero since the present one-second interval began, and a new one starts (R244). An error
counted in between starts it too. -/
def execHbmCeInterval (s : State) : Res := .next s.ceInterval

/-- The next line from `lo` on that a requester can reach. -/
def State.patrolFrom (s : State) (pc lo : Nat) : Option Nat :=
  ((s.heldGrans pc).filterMap fun g =>
    ((List.range 64).map fun i => 64 * g + i).find? fun la => decide (lo ≤ la) && s.reachable pc la).min?

/-- The line that the patrol reads next: in line-address order, from the first again behind the last (R246). -/
def State.patrolNext (s : State) (pc : Nat) : Option Nat :=
  (s.patrolFrom pc (s.pch pc).patrol).orElse fun _ => s.patrolFrom pc 0

/-- Upsets join what already stands in a line (R243). -/
def State.addUpset (s : State) (pc la : Nat) (u : LineUpset) : State :=
  let v := s.lineUpset pc la
  s.setUpset pc la { bits := v.bits ^^^ u.bits, addr := v.addr || u.addr, onDie := v.onDie || u.onDie, tag := v.tag || u.tag }

/-- HBM_PATROL_READ: the next line, corrected and poisoned as any read; `ups` are upsets that lines of the pseudo-channel have
met by then, which stand until a read finds them or a write covers them. -/
def execHbmPatrolRead (p : ChanId) (ups : List (Nat × LineUpset)) (s : State) : Res :=
  let s := each ups (fun u s => s.addUpset p (u.1 % chanLines) u.2) s
  if (s.pch p).st ≠ .active then .next s
  else
    match s.patrolNext p with
    | none => .next s
    | some la =>
      let s := s.updPch p fun x => { x with
        patrol := (la + 1) % chanLines, reqs := x.reqs ++ [{ port := 0, la := la, write := false, at_ := s.tl.up, patrol := true }] }
      let s := s.serveAll
      if (s.region (regionOf p la)).lost then .next (s.poisonRead p)
      else
        match s.look p la with
        | (.poison, s) => .next (s.poisonRead p)
        | (.badCode, s) => .next (s.badCodeRead none p la pcEcc)
        | (.badTag, s) => .next (s.badTagRead none p la)
        | (_, s) => .next s

/-- A key roll walks on the pseudo-channel and keeps it out of self-refresh (R260). -/
def State.rollTraffic (s : State) (pc : Nat) : Bool :=
  (List.range 128).any fun i =>
    match (s.region (128 * (pc / 16) + i)).walkingRoll with
    | some q => !s.rollPassed q (pc / 16) (pc % 16) && !(s.pch pc).pausesRoll
    | none => false

/-- HBM_SELF_REFRESH_ENTRY: the pseudo-channel has been idle for HBM_SR_IDLE; 0 turns it off. -/
def execHbmSelfRefreshEntry (p : ChanId) (s : State) : Res :=
  let x := s.pch p
  if x.st = .active ∧ x.srIdle ≠ 0 ∧ x.retrains.isEmpty ∧ ¬ s.rollTraffic p then .next (s.setPch p { x with st := .selfRefresh, rows := {} })
  else .next s

/-- HBM_SELF_REFRESH_EXIT: an exit that a retrain or roll traffic has started completes (R240, R260). The exit for a request is
part of the step that makes it (log 16); in HOLD only the return to RUN ends self-refresh (R238). -/
def execHbmSelfRefreshExit (p : ChanId) (s : State) : Res :=
  if s.pwr.mode ≠ .hold ∧ ((s.pch p).retrains ≠ [] ∨ s.rollTraffic p) then .next (s.wakePch p) else .next s

/-! ## Status window (R247) -/

/-- One of the four migrations that run leaves the pseudo-channel (R220). -/
def State.migratingOut (s : State) (pc : Nat) : Bool :=
  (s.pool.mig.take 4).any fun m => match s.buf m.handle with | some b => b.place.chans.contains pc | none => false

def PchState.code : PchState → Nat
  | .untrained => 0 | .active => 1 | .selfRefresh => 2 | .retraining => 3 | .failed => 4

def State.pcStatus (s : State) (pc : Nat) : Nat :=
  let x := s.pch pc
  pack [(x.st.code, 29), (bit x.coast, 28), (bit x.hot, 27), (bit (s.migratingOut pc), 26), (x.spares.toNat, 16)]

def State.pcErrcnt (s : State) (pc : Nat) : Nat :=
  let x := s.pch pc
  pack [(x.uncorr.toNat, 48), (x.poisonReads.toNat, 32), ((s.hbm.late.get 0 pc).toNat, 16), (x.corr.toNat, 0)]

end Sys2Proof.Machine
end

