-- ==== Sys2Proof/Machine/Sched.lean ====
section
/-! DEFINITION. The task schedulers (spec/09_task_scheduler.md): entries, operands, delay lists, dispatch, commit, delivery. -/

namespace Sys2Proof.Machine

/-! ## Numbers -/

/-- Heath and row of an engine; heath of an entry and of a row (R11). -/
def engHeath (e : Nat) : Nat := e / 128
def engRow (e : Nat) : Nat := e / 16
def entHeath (n : Nat) : Nat := n / 2048
/-- The first engine of each row is its lead engine. -/
def isLead (e : Nat) : Bool := e % 16 = 0

def StippleCause.code : StippleCause → Nat
  | .illegal => 1 | .alias_ => 2 | .badTarget => 3 | .stack => 4 | .stageFull => 5 | .dmemEcc => 6 | .pmemEcc => 7
  | .watchdog => 8 | .reservation => 9

/-- DETAIL of STIPPLE_FAULT and TASK_HELD (R349). -/
def taskDetail (cause pc entry engine : Nat) : BitVec 96 :=
  BitVec.ofNat 96 (pack [(cause, 48), (pc, 32), (entry, 16), (engine, 0)])

/-! ## Reservations (R192, R193) -/

/-- Credits an entry reserves, by queue: two reservations on one queue add up. -/
def Entry.reserves (x : Entry) : List (Nat × Nat) :=
  let l := if x.outq0 = x.outq1 then [(x.outq0.toNat, x.outn0.toNat + x.outn1.toNat)]
    else [(x.outq0.toNat, x.outn0.toNat), (x.outq1.toNat, x.outn1.toNat)]
  l.filter fun p => p.2 ≠ 0

/-- The producer slot of heath `hh`'s scheduler on a queue. -/
def State.schedSlot (s : State) (hh q : Nat) : Option QSlot :=
  ((s.queue q).slotOf (srcCode 2 hh)).map fun i => (s.queue q).slot i

/-- Credits that the scheduler knows of and has not reserved. -/
def State.schedAvail (s : State) (hh q : Nat) : Nat :=
  match s.schedSlot hh q with
  | some sl => sl.held - sl.due - (s.sch hh).qresv.get 0 q
  | none => 0

/-- A reservation that the full grant could meet. -/
def State.canEver (s : State) (hh : Nat) (x : Entry) : Bool :=
  x.reserves.all fun p => match s.schedSlot hh p.1 with | some sl => decide (p.2 ≤ sl.grant) | none => false

/-- Both reservations can be taken now. -/
def State.canReserve (s : State) (hh : Nat) (x : Entry) : Bool :=
  decide ((s.sch hh).commit.length + (s.sch hh).resv + 32 ≤ 8192) &&
    x.reserves.all fun p => decide (p.2 ≤ s.schedAvail hh p.1)

def State.takeResv (s : State) (hh : Nat) (x : Entry) : State :=
  s.updSch hh fun c => { c with
    resv := c.resv + 32, qresv := x.reserves.foldl (fun t p => t.upd 0 p.1 (· + p.2)) c.qresv }

def State.giveResv (s : State) (hh : Nat) (x : Entry) : State :=
  s.updSch hh fun c => { c with
    resv := c.resv - 32, qresv := x.reserves.foldl (fun t p => t.upd 0 p.1 (· - p.2)) c.qresv }

/-! ## Ready, delayed, held -/

/-- The entry becomes READY behind the others. -/
def State.makeReady (s : State) (n : Nat) : State :=
  (s.updEnt n fun x => { x with st := .ready }).updSch (entHeath n) fun c => { c with ready := c.ready ++ [n] }

/-- Due tick reached, modulo 2^32 (R188). -/
def dueBy (due count : BitVec 32) : Bool := decide ((count - due).toNat < 2 ^ 31)

def State.tickCount (s : State) (hh : Nat) : BitVec 32 := (s.tl.ticks.get {} hh).count

def Sched.dlist (c : Sched) (i : Nat) : List Nat := c.dlists.get [] i

/-- Put an entry into a list sorted by due tick, behind those of the same tick. -/
def insertDue (s : State) (n : Nat) : List Nat → List Nat
  | [] => [n]
  | m :: r => if (s.ent n).due ≠ (s.ent m).due ∧ dueBy (s.ent n).due (s.ent m).due then n :: m :: r else m :: insertDue s n r

/-- A DELAYED entry enters its list, READY when its due tick has passed, or waits outside a full one (R189). -/
def State.admits (s : State) (n : Nat) : State :=
  let hh := entHeath n
  let i := (s.ent n).dlist.toNat
  let l := (s.sch hh).dlist i
  if l.length < 512 then s.updSch hh fun c => { c with dlists := c.dlists.set [] i (insertDue s n l) }
  else s.updSch hh fun c => { c with outside := c.outside ++ [n] }

/-- Entries outside enter, in order of becoming DELAYED, as places free; one already due goes to READY. -/
def State.admitAll (s : State) (hh : Nat) : List Nat → State
  | [] => s
  | n :: r =>
    let i := (s.ent n).dlist.toNat
    if ((s.sch hh).dlist i).length < 512 then
      let s := s.updSch hh fun c => { c with outside := c.outside.erase n }
      (if dueBy (s.ent n).due (s.tickCount hh) then s.makeReady n else s.admits n).admitAll hh r
    else s.admitAll hh r

/-- TASK_HELD: the entry keeps its operands and is never dispatched (R193, R198). Of a task that no engine ran, PC is zero and
ENGINE 0x3FF (R349). -/
def State.holdTask (s : State) (n : Nat) (cause : StippleCause) : State :=
  let x := s.ent n
  let s := s.setEnt n { x with st := .held }
  s.eventAt [s.pwr.owner] 0x0802 (taskDetail cause.code x.lastPc.toNat n (x.lastEng.getD 0x3FF)) s.tl.now

/-- The task takes with it the index of the last instruction it issued on engine `e` (R349). -/
def State.keepPc (s : State) (e n : Nat) : State := s.updEnt n fun x => { x with lastPc := (s.eng e).lastPc }

/-- A dispatched task is returned: its reservations go back and it is READY at the head of its priority (R197). -/
def State.returnTask (s : State) (n : Nat) : State :=
  let hh := entHeath n
  let s := s.giveResv hh (s.ent n)
  let s := s.updEnt n fun x => { x with st := .ready }
  s.updSch hh fun c => { c with ready := n :: c.ready, redispatch := satInc c.redispatch }

/-- A counted return: HELD when RETRY would exceed the row's limit (R198). -/
def State.countedReturn (s : State) (e n : Nat) (cause : StippleCause) : State :=
  let limit := (s.row (engRow e)).limit
  if limit < (s.ent n).retry.toNat + 1 then
    ((s.giveResv (entHeath n) (s.ent n)).keepPc e n).holdTask n cause
  else ((s.keepPc e n).updEnt n fun x => { x with retry := satInc x.retry }).returnTask n

/-- The task in an engine's prefetch slot is returned. -/
def State.returnPrefetch (s : State) (e : Nat) : State :=
  match (s.eng e).prefetch with
  | some n => (s.updEng e fun x => { x with prefetch := none }).returnTask n
  | none => s

/-! ## Operands (R185-R188) -/

inductive OpRes where
  | taken | otherWorld | outside | occupied
deriving DecidableEq, Repr

/-- What happens to an operand write. -/
def State.opCheck (s : State) (n slot : Nat) (world : Bool) : OpRes :=
  let x := s.ent n
  if world ≠ x.world then .otherWorld
  else if x.st = .free ∨ ¬ x.slotmask.getLsbD slot then .outside
  else if (x.st = .idle ∨ x.st = .filling) ∧ ¬ x.filled.getLsbD slot then .taken
  else .occupied

/-- A write is taken: FILLED, FILLING, and readiness due when it was the last required slot. -/
def State.opTake (s : State) (n slot : Nat) (data : BitVec 64) : State :=
  s.updEnt n fun x =>
    let f := x.filled ||| (BitVec.ofNat 4 (2 ^ slot))
    { x with st := .filling, filled := f, ops := x.ops.set 0 slot data, eval := decide (f &&& x.slotmask = x.slotmask) }

/-- TASK_READINESS_EVAL: the cycle after the last required slot was taken (R188). -/
def execTaskReadinessEval (n : EntryId) (s : State) : Res :=
  let x := s.ent n
  if ¬ s.netUp ∨ ¬ x.eval then .next s
  else
    let s := s.updEnt n fun x => { x with eval := false }
    if x.delay = 0 then .next (s.makeReady n)
    else
      let due := s.tickCount (entHeath n) + x.delay.setWidth 32
      .next ((s.updEnt n fun x => { x with st := .delayed, due := due }).admits n)

/-- Entries due at a tick: the head of every list, one per list in each cycle, in list order. -/
def dueOrder (s : State) (count : BitVec 32) (c : Sched) : List Nat :=
  let ls := (List.range 4).map fun i => (c.dlist i).takeWhile fun n => dueBy (s.ent n).due count
  let longest := (ls.map List.length).foldl max 0
  (List.range longest).flatMap fun k => ls.filterMap fun l => l[k]?

/-- DELAY_LIST_TICK: the phase counter has reached P (R48): a tick, and every due entry moves to READY (R189). In HOLD the
tick goes on and the tasks wait in READY (R49). -/
def execDelayListTick (hh : HeathId) (s : State) : Res :=
  let g := s.tl.ticks.get {} hh
  if g.phase < g.period * nsU ∨ ¬ s.alive then .next s
  else
    let s := { s with tl.ticks := s.tl.ticks.set {} hh { g with phase := g.phase - g.period * nsU, count := g.count + 1 } }
    let due := dueOrder s (g.count + 1) (s.sch hh)
    let s := s.updSch hh fun c => { c with
      dlists := (List.range 4).foldl (fun t i => t.upd [] i fun l => l.filter fun n => !due.contains n) c.dlists }
    let s := each due (fun n s => s.makeReady n) s
    .next (s.admitAll hh (s.sch hh).outside)

/-! ## Dispatch (R190, R191, R193) -/

/-- The row takes the entry's tasks. -/
def State.rowTakes (s : State) (r : Nat) (x : Entry) : Bool :=
  let w := s.row r
  x.rowset.getLsbD (r % 8) && !w.offline && !w.draining && decide (w.gate = .opened) && decide (w.world = x.world)

/-- An engine that can take a task: its prefetch slot is empty (R191), it is not HALTED (R461), and no transfer is left over
from a reset (R182). -/
def Engine.accepts (x : Engine) : Bool :=
  x.prefetch.isNone && decide (x.st ≠ .halted) && (x.task.isSome || x.xfers.isEmpty)

/-- The engine's kind matches LEADSEL. -/
def kindOk (e : Nat) (sel : BitVec 2) : Bool := if sel = 0 then !isLead e else if sel = 1 then isLead e else true

/-- The engine that takes the task: idle ones first, in global order after the engine chosen last. -/
def State.chooseEngine (s : State) (hh : Nat) (x : Entry) : Option Nat :=
  let order := (List.range 128).map fun i => 128 * hh + ((s.sch hh).lastEng + 1 + i) % 128
  let ok := fun e => s.rowTakes (engRow e) x && kindOk e x.leadsel && (s.eng e).accepts
  (order.find? fun e => ok e && (s.eng e).task.isNone).orElse fun _ => order.find? ok

/-- READY entries, highest priority first. -/
def State.readyOrder (s : State) (hh : Nat) : List Nat :=
  [3, 2, 1, 0].flatMap fun p => (s.sch hh).ready.filter fun n => (s.ent n).prio.toNat = p

/-- The first ready task that can be placed is dispatched. One whose reservation can never be met goes to HELD as the
scheduler comes to it (R193). -/
def State.dispatch (s : State) (hh : Nat) : List Nat → State
  | [] => s
  | n :: rest =>
    let x := s.ent n
    let leave := fun s : State => s.updSch hh fun c => { c with ready := c.ready.erase n }
    if ¬ s.canEver hh x then ((leave s).holdTask n .reservation).dispatch hh rest
    else
      match s.chooseEngine hh x with
      | some e =>
        if s.canReserve hh x then
          let s := ((leave s).takeResv hh x).updEnt n fun x => { x with st := .dispatched }
          (s.updSch hh fun c => { c with lastEng := e }).updEng e fun y => { y with prefetch := some n }
        else s.dispatch hh rest
      | none => s.dispatch hh rest

/-- TASK_DISPATCH: one scheduler cycle. -/
def execTaskDispatch (hh : HeathId) (s : State) : Res :=
  if s.netUp then .next (s.dispatch hh (s.readyOrder hh)) else .next s

/-- TASK_START: the engine state is set under R148 and the watchdog is loaded (R178). -/
def execTaskStart (e : EngineId) (s : State) : Res :=
  let x := s.eng e
  match x.prefetch with
  | some n =>
    if s.netUp ∧ x.task = none ∧ x.abort = none ∧ x.xfers = [] ∧ x.st = .idle then
      let t := s.ent n
      let op := fun k => t.ops.get 0 k
      let w := [12, 13, 14, 15].foldl (fun (w : Tab (BitVec 64)) i => w.set 0 i (op (i - 12))) {}
      let r := s.row (engRow e)
      let s := s.setEng e { ({} : Engine) with
        w := w, pc := t.pc, task := some n, world := r.world, wdog := r.period, wdogOn := true
        st := .running, xtrig := x.xtrig, cmps := x.cmps, lastPc := t.pc }
      .next (s.updEnt n fun y => { y with st := .running, lastEng := some e.val })
    else .next s
  | none => .next s

/-! ## Commit and delivery (R195, R196) -/

/-- The stage as committed words: reserved credits stand behind the first words of a queue, as many as were reserved. -/
def commitWords (world : Bool) : List StageItem → List (Nat × Nat) → List Commit × List (Nat × Nat)
  | [], left => ([], left)
  | .push q p d :: r, left =>
    let has := left.any fun c => c.1 = q && c.2 ≠ 0
    let left := left.map fun c => if c.1 = q then (q, c.2 - 1) else c
    let t := commitWords world r left
    ({ item := .push q p d, world := world, rsv := has } :: t.1, t.2)
  | .token n k d :: r, left =>
    let t := commitWords world r left
    ({ item := .token n k d, world := world, rsv := false } :: t.1, t.2)

/-- The commit of R195, as one step. -/
def State.commitTask (s : State) (e n : Nat) : State :=
  let x := s.ent n
  let hh := entHeath n
  let t := commitWords x.world (s.eng e).stage x.reserves
  let s := s.updSch hh fun c => { c with
    commit := c.commit ++ t.1, resv := c.resv - 32
    qresv := t.2.foldl (fun q p => q.upd 0 p.1 (· - p.2)) c.qresv }
  let s := s.setEnt n { x with
    ops := {}, filled := 0, retry := 0, eval := false, lastEng := none, lastPc := 0, st := if x.rearm then .idle else .free }
  s.updEng e fun y => { y with task := none, ending := false, stage := [], wdogOn := false, rep := none, loop := none, lcount := 0 }

/-- The item's target: a queue, or an operand slot. -/
def StageItem.target : StageItem → Nat × Nat × Nat
  | .push q _ _ => (0, q, 0)
  | .token n k _ => (1, n, k)

/-- The words that a heath's scheduler has still to deliver: its commit buffer, then what the hedgerow brought (R185). -/
def Sched.waiting (c : Sched) : List Commit := c.commit ++ c.arrivals

/-- No earlier word that waits has the target of word `i`. -/
def Sched.foremost (c : Sched) (i : Nat) (w : Commit) : Bool := (c.waiting.take i).all fun v => v.item.target ≠ w.item.target

/-- Word `i` of those waiting leaves; a reserved credit is spent with it. -/
def State.leaveBuffer (s : State) (hh i : Nat) (w : Commit) : State :=
  s.updSch hh fun c => { c with
    commit := c.commit.eraseIdx i, arrivals := if i < c.commit.length then c.arrivals else c.arrivals.eraseIdx (i - c.commit.length)
    qresv := match w.item, w.rsv with | .push q _ _, true => c.qresv.upd 0 q (· - 1) | _, _ => c.qresv }

/-- Try to deliver word `i` of those that wait at heath `hh`'s scheduler to its target. -/
def State.deliverWord (s : State) (hh i : Nat) (w : Commit) : State :=
  match w.item with
  | .push q prio data =>
    let out := s.leaveBuffer hh i w
    match s.schedSlot hh q with
    | some sl =>
      if (if w.rsv then sl.held = 0 else s.schedAvail hh q = 0) ∨ s.qCol q = .retention then s
      else
        let (t, r) := out.hgPush (srcCode 2 hh) w.world q prio data
        if r = .world then t.deny 2 hh 2 q else t
    | none =>
      let (t, r) := out.hgPush (srcCode 2 hh) w.world q prio data
      if r = .world then t.deny 2 hh 2 q else t
  | .token n k data =>
    let out := s.leaveBuffer hh i w
    match s.opCheck n k w.world with
    | .taken => out.opTake n k data
    | .occupied => s
    | .outside =>
      (out.updSch (entHeath n) fun c => { c with tokDropped := satInc c.tokDropped }).ownerEvent 0x0804 [n, k]
    | .otherWorld =>
      let t := out.updSch (entHeath n) fun c => { c with tokDropped := satInc c.tokDropped }
      match w.sender with
      | some r => t.deny r.kind r.index 7 n
      | none => t.deny 2 hh 7 n

/-- COMMIT_BUFFER_DELIVERY: word `i` of those waiting, when no earlier one has the same target. -/
def execCommitBufferDelivery (hh : HeathId) (i : Nat) (s : State) : Res :=
  match (s.sch hh).waiting[i]? with
  | some w => if s.netUp ∧ (s.sch hh).foremost i w then .next (s.deliverWord hh i w) else .next s
  | none => .next s

/-! ## Forwarding (R125) -/

/-- The head word of a forwarding queue is offered to its target. A word of an uncorrectable row is forwarded with its data, for no rule
says more of it (DESIGN CHOICE, log 13). -/
def State.forward (s : State) (q : Nat) : State :=
  let x := s.queue q
  match x.fwd, x.head with
  | some f, some w =>
    let n := f.toNat % 2 ^ 17
    if f.getLsbD 63 then
      let k := fld f.toNat 17 2
      match s.opCheck n k (s.qWorld q) with
      | .taken => (s.opTake n k w.data).deliver q
      | r =>
        let s := s.updSch (entHeath n) fun c => { c with opRefused := satInc c.opRefused }
        if r = .otherWorld then s.deny 7 q 7 n else s
    else
      let src := srcCode 6 q
      match (s.queue n).slotOf src with
      | some i =>
        let sl := (s.queue n).slot i
        if sl.held - sl.due = 0 ∨ s.qCol n ≠ .on then s
        else
          let (t, r) := s.hgPush src (s.qWorld q) n w.prio w.data
          if r = .taken then t.deliver q else if r = .world then t.deny 7 q 2 n else t
      | none => s
  | _, _ => s

/-- A queue delivers by forwarding now. -/
def State.forwards (s : State) (q : Nat) : Bool :=
  s.running && s.qEnabled q && decide ((s.qCfg q).cons = 1) && decide (s.qCol q = .on)

def execQueueForwardOffer (q : QueueId) (s : State) : Res := if s.forwards q then .next (s.forward q) else .next s

/-! ## Task release cues (R42, R44, R186) -/

/-- The token of a TASK_RELEASE cue reaches slot `slot` of entry `n`, for host `host`. -/
def State.release (s : State) (key host : Nat) (world : Bool) (n slot : Nat) (token : BitVec 64) : State :=
  match s.opCheck n slot world with
  | .taken => s.opTake n slot token
  | r =>
    let s := s.updSch (entHeath n) fun c => { c with relLost := satInc c.relLost }
    let s := s.event [host] 0x0803 [n, slot]
    if r = .otherWorld then s.deny 8 key 7 n else s

/-! ## The mailbox commands (R183, R184, R198) -/

/-- Words [63:0] and [127:64] of an entry's control word (R183). -/
def EntState.code : EntState → Nat
  | .free => 0 | .idle => 1 | .filling => 2 | .delayed => 3 | .ready => 4 | .dispatched => 5 | .running => 6 | .held => 7

def Entry.lowWord (x : Entry) : Nat :=
  pack [(x.outq0.toNat, 47), (x.outn0.toNat, 41), (x.outq1.toNat, 24), (x.outn1.toNat, 18)]

def Entry.highWord (x : Entry) : Nat :=
  pack [(x.st.code, 61), (bit x.world, 60), (bit x.rearm, 59), (x.prio.toNat, 57), (x.leadsel.toNat, 55), (x.rowset.toNat, 47),
    (x.pc.toNat, 36), (x.slotmask.toNat, 32), (x.filled.toNat, 28), (x.dlist.toNat, 26), (x.delay.toNat, 10), (x.retry.toNat, 6)]

def taskEntrySet (s : State) (h : Nat) (c : Cmd) : Ans :=
  let n := c.f 0 0 13
  let x := s.ent n
  let w := c.f 2 60 1 = 1
  if (w ∧ h ≠ s.pwr.owner) ∨ ¬ reaches c.world x.world then .denied s h c
  else if x.st ≠ .free ∧ x.st ≠ .idle then .busy s
  else
    let b := fun {k : Nat} (i lo : Nat) => BitVec.ofNat k (c.f i lo k)
    let new : Entry := {
      st := .idle, world := w, rearm := c.f 2 59 1 = 1, prio := b 2 57, leadsel := b 2 55, rowset := b 2 47, pc := b 2 36
      slotmask := b 2 32, dlist := b 2 26, delay := b 2 10, outq0 := b 1 47, outn0 := b 1 41, outq1 := b 1 24, outn1 := b 1 18 }
    let t := s.setEnt n new
    -- an IDLE entry whose control word changes is redefined; a FREE one is defined afresh (R45)
    { s := if x.st = .idle ∧ (x.lowWord, x.highWord) ≠ (new.lowWord, new.highWord) then t.disarmAll cTargetRedefined (Cue.atEntry n) else t }

def execTaskEntrySet (h : HostId) (s : State) : Res := runCmd h 0x0805 anyCmd taskEntrySet s

/-- Words an entry holds. -/
def Entry.words (x : Entry) : Nat := popCount 4 x.filled.toNat

/-- TASK_ENTRY_CLEAR: the entry is FREE; its world stays, which only WORLD_SET and a reset change (R437). -/
def taskEntryClear (s : State) (h : Nat) (c : Cmd) : Ans :=
  let n := c.f 0 0 13
  let x := s.ent n
  if ¬ reaches c.world x.world then .denied s h c
  else if x.st = .free ∨ x.st = .idle ∨ x.st = .filling ∨ x.st = .held then
    { s := (s.setEnt n { world := x.world }).disarmAll cTargetDeleted (Cue.atEntry n), res := [x.words] }
  else .busy s

def execTaskEntryClear (h : HostId) (s : State) : Res := runCmd h 0x0806 anyCmd taskEntryClear s

def taskEntryRetry (s : State) (h : Nat) (c : Cmd) : Ans :=
  let n := c.f 0 0 13
  let x := s.ent n
  if ¬ reaches c.world x.world then .denied s h c
  else if x.st = .held then { s := (s.setEnt n { x with retry := 0 }).makeReady n }
  else .ignored s

def execTaskEntryRetry (h : HostId) (s : State) : Res := runCmd h 0x0807 anyCmd taskEntryRetry s

def taskEntryQuery (s : State) (h : Nat) (c : Cmd) : Ans :=
  let x := s.ent (c.f 0 0 13)
  if ¬ reaches c.world x.world then .denied s h c
  else { s := s, res := [x.lowWord, x.highWord] ++ (List.range 4).map fun k => (x.ops.get 0 k).toNat }

def execTaskEntryQuery (h : HostId) (s : State) : Res := runCmd h 0x0808 anyCmd taskEntryQuery s

/-! ## Status (R201) -/

def State.schedStatus (s : State) (hh : Nat) : Nat :=
  let c := s.sch hh
  let off := (List.range 8).map fun r => (bit (s.row (8 * hh + r)).offline, 56 + r)
  let dr := (List.range 8).map fun r => (bit (s.row (8 * hh + r)).draining, 48 + r)
  pack (off ++ dr ++ [(8192 - c.commit.length - c.resv, 32), (c.ready.length, 16), (c.outside.length, 0)])

def State.schedCounts (s : State) (hh : Nat) : Nat :=
  let c := s.sch hh
  pack [(c.opRefused.toNat, 48), (c.relLost.toNat, 32), (c.redispatch.toNat, 16), (c.tokDropped.toNat, 0)]

end Sys2Proof.Machine
end

