-- ==== Sys2Proof/Machine/Engine.lean ====
section
/-! DEFINITION. The stipple engine (spec/08_stipple_engines.md, R460-R464 of spec/22): instruction words, registers, hazards, memory
and control operations, faults, and the issue of one instruction. -/

namespace Sys2Proof.Machine

/-! ## Instruction words (R155-R158) -/

structure Slot where
  mop : Nat
  mw : Nat
  ma : Nat
  mm : Nat
  mam : Nat
  mln : Nat
deriving DecidableEq, Repr

structure Bundle where
  /-- a V-bundle: its word registers are V registers -/
  v : Bool
  aop : Nat
  ad : Nat
  as1 : Nat
  as2 : Nat
  ax : Nat
  s0 : Slot
  s1 : Slot
deriving DecidableEq, Repr

structure Ctl where
  cop : Nat
  ca : Nat
  cb : Nat
  cx : Nat
  imm : Nat
deriving DecidableEq, Repr

inductive Ins where
  | bundle (b : Bundle)
  | ctl (c : Ctl)
  | bad
deriving DecidableEq, Repr

/-- A memory slot of 18 bits. -/
def decodeSlot (v : Nat) : Slot :=
  { mop := fld v 14 4, mw := fld v 10 4, ma := fld v 7 3, mm := fld v 4 3, mam := fld v 2 2, mln := fld v 0 2 }

/-- A memory slot of a V-bundle, 16 bits: post-add, MLN 0 (R157). -/
def decodeVSlot (v : Nat) : Slot := { mop := fld v 12 4, mw := fld v 6 6, ma := fld v 3 3, mm := fld v 0 3, mam := 1, mln := 0 }

/-- The instruction of a word, on a lead engine or an ordinary one (R155). DESIGN CHOICE (log 18): a control word whose bits [43:40],
which must be zero (R158), are not is ILLEGAL. -/
def decodeIns (lead : Bool) (w : BitVec 64) : Ins :=
  let v := w.toNat
  match fld v 60 4 with
  | 0 =>
    .bundle { v := false, aop := fld v 52 8, ad := fld v 48 4, as1 := fld v 44 4, as2 := fld v 40 4, ax := fld v 36 4
              s0 := decodeSlot (fld v 18 18), s1 := decodeSlot (fld v 0 18) }
  | 1 =>
    if fld v 40 4 ≠ 0 then .bad
    else .ctl { cop := fld v 52 8, ca := fld v 48 4, cb := fld v 44 4, cx := fld v 32 8, imm := fld v 0 32 }
  | 2 =>
    if lead then
      .bundle { v := true, aop := fld v 52 8, ad := fld v 46 6, as1 := fld v 40 6, as2 := fld v 34 6, ax := fld v 32 2
                s0 := decodeVSlot (fld v 16 16), s1 := decodeVSlot (fld v 0 16) }
    else .bad
  | _ => .bad

/-- The arithmetic operations listed (R164). -/
def aops : List Nat :=
  [0x00, 0x10, 0x11, 0x18, 0x19, 0x20, 0x21, 0x22, 0x23, 0x24, 0x25, 0x26, 0x27, 0x30, 0x31, 0x32, 0x34, 0x35, 0x36, 0x37,
   0x38, 0x39, 0x3A, 0x3B, 0x3C, 0x3D]

/-- AD of the operation names an accumulator. -/
def adAcc (a : Nat) : Bool := [0x10, 0x11, 0x18, 0x19, 0x22, 0x23, 0x24, 0x26, 0x27].contains a
/-- AS1 of the operation names an accumulator. -/
def as1Acc (a : Nat) : Bool := [0x20, 0x21, 0x23, 0x24, 0x25, 0x26, 0x27].contains a
/-- AS1 and AS2 of the operation name word registers. -/
def as1Word (a : Nat) : Bool := [0x10, 0x11, 0x18, 0x19].contains a || 0x30 ≤ a
def as2Word (a : Nat) : Bool :=
  [0x10, 0x11, 0x18, 0x19, 0x26, 0x27, 0x30, 0x31, 0x36, 0x37, 0x38, 0x3D].contains a
/-- AD of the operation names a word register. -/
def adWord (a : Nat) : Bool := [0x20, 0x21, 0x25].contains a || (0x30 ≤ a && a ≤ 0x3C)
/-- Cycles until the result can be used (R164). -/
def aLatency (a : Nat) : Nat := if [0x20, 0x21, 0x25, 0x26, 0x27, 0x3C].contains a then 2 else 1

/-- The bundle is not a legal instruction (R157, R164, R165). -/
def Bundle.illegal (b : Bundle) : Bool :=
  !aops.contains b.aop || 0xC ≤ b.s0.mop || 0xA ≤ b.s1.mop && !(b.s1.mop = 0xA || b.s1.mop = 0xB) ||
  b.s1.mop = 0x8 || b.s1.mop = 0x9 ||
  b.v && ((adAcc b.aop && 4 ≤ b.ad) || (as1Acc b.aop && 4 ≤ b.as1) || 3 ≤ b.s0.mop || 3 ≤ b.s1.mop)

/-- The control operation is not legal on this engine (R166). -/
def Ctl.illegal (lead : Bool) (c : Ctl) : Bool :=
  0x14 < c.cop || (!lead && [0x05, 0x10, 0x11].contains c.cop) ||
  ([0x07, 0x08, 0x09, 0x0A, 0x0E, 0x12, 0x13].contains c.cop && 8 ≤ c.ca) ||
  ((c.cop = 0x0A || c.cop = 0x0F) && 8 ≤ c.cb) ||
  ((c.cop = 0x04 || c.cop = 0x05) && c.cx % 2 = 1 && 8 ≤ c.cb) ||
  (c.cop = 0x01 && 8 ≤ c.ca) ||
  ((c.cop = 0x0C || c.cop = 0x0D) && (8 ≤ c.cx % 16 || (!lead && 6 ≤ c.cx % 16)))

/-- The instruction that engine `e` fetches at index `p`. -/
def State.insAt (s : State) (e p : Nat) : Ins := decodeIns (isLead e) (s.mem.pmem.get 0 (2048 * e + p))

/-! ## Registers (R147, R160, R171) -/

/-- Keys of `ready`: W 0-15, physical V 64-127, ACC 200-203. -/
def Engine.vphys (x : Engine) (n : Nat) : Nat := (n + x.rbase.toNat) % 64
def Engine.wkey (x : Engine) (v : Bool) (n : Nat) : Nat := if v then 64 + x.vphys n else n

def Engine.word (x : Engine) (v : Bool) (n : Nat) : BitVec 64 := if v then x.v.get 0 (x.vphys n) else x.w.get 0 n
def Engine.setWord (x : Engine) (v : Bool) (n : Nat) (d : BitVec 64) : Engine :=
  if v then { x with v := x.v.set 0 (x.vphys n) d } else { x with w := x.w.set 0 n d }

def Engine.accOf (x : Engine) (n : Nat) : Acc := x.acc.get {} n
def Engine.setAcc (x : Engine) (n : Nat) (a : Acc) : Engine := { x with acc := x.acc.set {} n a }

/-- The lanes of a word as signed values. -/
def laneS (w : BitVec 64) (i : Nat) : Int := (wordLane w i).toInt
/-- A word from four lane values, low bits kept. -/
def ofLanes (l : List Int) : BitVec 64 := lanesWord (l.map (BitVec.ofInt 16))
/-- v0 and v1 of the fall-back path (R160). -/
def fbV (w : BitVec 64) (i : Nat) : Int := sgn 24 (fld w.toNat (32 * i) 24)

/-- The 56-bit fall-back value of an accumulator, and an accumulator from one (R147, R161). -/
def Acc.v56 (a : Acc) : Int := sgn 56 (a.im.toNat % 256 * 2 ^ 48 + a.re.toNat)
def Acc.of56 (v : Int) : Acc := { re := BitVec.ofInt 48 v, im := BitVec.ofInt 48 (v / 2 ^ 48) }

def Engine.asat (x : Engine) : Bool := x.arith.getLsbD 6
def Engine.osat (x : Engine) : Bool := x.arith.getLsbD 7
def Engine.shift (x : Engine) : Nat := x.arith.toNat % 64

/-- Write both parts of an accumulator with exact values (R161). -/
def Engine.accWrite (x : Engine) (n : Nat) (re im : Int) : Engine :=
  { x.setAcc n { re := accFit 48 x.asat re, im := accFit 48 x.asat im } with aovf := x.aovf || outS 48 re || outS 48 im }

/-- Write the fall-back view of an accumulator with an exact value (R161). -/
def Engine.accWrite56 (x : Engine) (n : Nat) (v : Int) : Engine :=
  { x.setAcc n (Acc.of56 (accFit 56 x.asat v).toInt) with aovf := x.aovf || outS 56 v }

/-! ## Loads in flight (R167, R168) -/

/-- Replace the lanes of a word that a mask names. -/
def mergeLanes (old new : BitVec 64) (m : BitVec 4) : BitVec 64 :=
  lanesWord ((List.range 4).map fun i => if m.getLsbD i then wordLane new i else wordLane old i)

/-- A load lands in its register. -/
def Engine.land1 (x : Engine) (l : PendLoad) : Engine :=
  if l.v then { x with v := x.v.upd 0 l.reg fun o => mergeLanes o l.value l.lanes }
  else { x with w := x.w.upd 0 l.reg fun o => mergeLanes o l.value l.lanes }

/-- Every load seen by an instruction that issues at cycle `c` lands. -/
def Engine.land (x : Engine) (c : Nat) : Engine :=
  let y := (x.loads.filter fun l => l.due ≤ c).foldl Engine.land1 x
  { y with loads := x.loads.filter fun l => c < l.due }

/-- An arithmetic result of latency `lat` issued at cycle `c` is written: it prevails over a load that lands earlier. -/
def Engine.result (x : Engine) (v : Bool) (n : Nat) (d : BitVec 64) (c lat : Nat) : Engine :=
  let reg := if v then x.vphys n else n
  { x.setWord v n d with
    ready := x.ready.set 0 (x.wkey v n) (c + lat)
    loads := x.loads.filter fun l => !(decide (l.v = v) && decide (l.reg = reg) && decide (l.due < c + lat)) }

/-- An accumulator result becomes usable. -/
def Engine.accReady (x : Engine) (n c lat : Nat) : Engine := { x with ready := x.ready.set 0 (200 + n) (c + lat) }

/-! ## Arithmetic operations (R161-R164) -/

/-- Redundant sign bits of a value of `b` bits (R163). -/
def signBits (b : Nat) (v : Int) : Nat :=
  ((List.range b).filter fun n => !outS b (v * 2 ^ n)).foldl max 0

/-- A lane result that may saturate: the lane, and whether it lay out of range. -/
def laneFit (sat : Bool) (v : Int) : Int × Bool := (if sat then clampS 16 v else v, outS 16 v)

/-- Lanes from results, with OOVF. -/
def Engine.lanesOut (x : Engine) (b : Bundle) (c : Nat) (l : List (Int × Bool)) : Engine :=
  { x.result b.v b.ad (ofLanes (l.map (·.1))) c (aLatency b.aop) with oovf := x.oovf || l.any (·.2) }

/-- Round a value to `n` bits with ARITH (R162). -/
def Engine.rnd (x : Engine) (n lim : Nat) (v : Int) : Int × Bool :=
  let y := roundShift v (min x.shift lim)
  (if x.osat then clampS n y else sgn n (unsgn n y), outS n y)

/-- The complex product of lanes (re, im) of a and b, conjugated or not (R138, R161). -/
def cprod (conj : Bool) (ar ai br bi : Int) : Int × Int :=
  if conj then (ar * br + ai * bi, ai * br - ar * bi) else (ar * br - ai * bi, ai * br + ar * bi)

/-- The arithmetic operation of a bundle issued at cycle `c`, on engine `x` whose loads have landed. -/
def Engine.arithOp (x : Engine) (b : Bundle) (c : Nat) : Engine :=
  let w1 := x.word b.v b.as1
  let w2 := x.word b.v b.as2
  let neg := b.ax / 2 % 2 = 1
  let ax0 := b.ax % 2 = 1
  let zero := b.ax / 4 % 2 = 1
  let pm := fun a m : Int => if neg then a - m else a + m
  let l1 := fun i => laneS w1 i
  let l2 := fun i => laneS w2 i
  let p := b.ad / 2 % 2
  let q := b.as1 / 2 % 2
  let d := b.ad % 4
  let a1 := x.accOf (b.as1 % 4)
  let re := fun n => if zero then 0 else (x.accOf n).re.toInt
  let im := fun n => if zero then 0 else (x.accOf n).im.toInt
  let fb := fun n => if zero then 0 else (x.accOf n).v56
  let word := fun d : BitVec 64 => x.result b.v b.ad d c (aLatency b.aop)
  let m0 := cprod ax0 (l1 0) (l1 1) (l2 0) (l2 1)
  let m1 := cprod ax0 (l1 2) (l1 3) (l2 2) (l2 3)
  let n := (wordLane w2 0).toNat % 64
  match b.aop with
  | 0x10 =>
    let y := x.accWrite (2 * p) (pm (re (2 * p)) m0.1) (pm (im (2 * p)) m0.2)
    let y := y.accWrite (2 * p + 1) (pm (re (2 * p + 1)) m1.1) (pm (im (2 * p + 1)) m1.2)
    (y.accReady (2 * p) c 1).accReady (2 * p + 1) c 1
  | 0x11 => (x.accWrite d (pm (re d) (m0.1 + m1.1)) (pm (im d) (m0.2 + m1.2))).accReady d c 1
  | 0x18 =>
    let y := x.accWrite56 (2 * p) (pm (fb (2 * p)) (fbV w1 0 * fbV w2 0))
    let y := y.accWrite56 (2 * p + 1) (pm (fb (2 * p + 1)) (fbV w1 1 * fbV w2 1))
    (y.accReady (2 * p) c 1).accReady (2 * p + 1) c 1
  | 0x19 => (x.accWrite56 d (pm (fb d) (fbV w1 0 * fbV w2 0 + fbV w1 1 * fbV w2 1))).accReady d c 1
  | 0x20 =>
    let r := fun k => [x.rnd 16 47 (x.accOf k).re.toInt, x.rnd 16 47 (x.accOf k).im.toInt]
    x.lanesOut b c (r (2 * q) ++ r (2 * q + 1))
  | 0x21 =>
    let r := fun k => x.rnd 24 55 (x.accOf k).v56
    let v := fun k : Nat => BitVec.ofInt 32 (r k).1
    { word (v (2 * q + 1) ++ v (2 * q)) with oovf := x.oovf || (r (2 * q)).2 || (r (2 * q + 1)).2 }
  | 0x22 => (x.setAcc d {}).accReady d c 1
  | 0x23 => (x.setAcc d a1).accReady d c 1
  | 0x24 =>
    let y := if ax0 then x.accWrite56 d (pm (x.accOf d).v56 a1.v56)
      else x.accWrite d (pm (x.accOf d).re.toInt a1.re.toInt) (pm (x.accOf d).im.toInt a1.im.toInt)
    y.accReady d c 1
  | 0x25 =>
    let k := if ax0 then signBits 56 a1.v56 else min (signBits 48 a1.re.toInt) (signBits 48 a1.im.toInt)
    word (BitVec.ofNat 64 k)
  | 0x26 =>
    let y := if ax0 then x.accWrite56 d (a1.v56 * 2 ^ min n 55)
      else x.accWrite d (a1.re.toInt * 2 ^ min n 47) (a1.im.toInt * 2 ^ min n 47)
    y.accReady d c 2
  | 0x27 =>
    let y := if ax0 then x.accWrite56 d (a1.v56 / 2 ^ min n 55)
      else x.accWrite d (a1.re.toInt / 2 ^ min n 47) (a1.im.toInt / 2 ^ min n 47)
    y.accReady d c 2
  | 0x30 => x.lanesOut b c ((List.range 4).map fun i => laneFit ax0 (l1 i + l2 i))
  | 0x31 => x.lanesOut b c ((List.range 4).map fun i => laneFit ax0 (l1 i - l2 i))
  | 0x32 =>
    let f := fun v : Int => if neg then laneFit false ((v + 1) / 2) else laneFit ax0 v
    x.lanesOut b c [f (l1 0 + l1 2), f (l1 1 + l1 3), f (l1 0 - l1 2), f (l1 1 - l1 3)]
  | 0x34 => word (ofLanes ((List.range 4).map fun i => l1 i * 2 ^ b.ax))
  | 0x35 => word (ofLanes ((List.range 4).map fun i => roundShift (l1 i) b.ax))
  | 0x36 => word (w1 &&& w2)
  | 0x37 => word (w1 ||| w2)
  | 0x38 => word (w1 ^^^ w2)
  | 0x39 => word w1
  | 0x3A => word (ofLanes [l1 0, clampS 16 (-l1 1), l1 2, clampS 16 (-l1 3)])
  | 0x3B => word (ofLanes [l1 2, l1 3, l1 0, l1 1])
  | 0x3C => word (BitVec.ofNat 64 (((List.range 4).map fun i => signBits 16 (l1 i)).foldl min 15))
  | 0x3D => { x with z := l1 0 = l2 0, n := l1 0 < l2 0 }
  | _ => x

/-- Registers a bundle reads: keys of `ready`. -/
def Engine.reads (x : Engine) (b : Bundle) : List Nat :=
  let a := b.aop
  let acc := fun n => 200 + n
  let pair := fun n => [acc (2 * n), acc (2 * n + 1)]
  (if as1Word a then [x.wkey b.v b.as1] else []) ++ (if as2Word a then [x.wkey b.v b.as2] else []) ++
  (if a = 0x10 || a = 0x18 then (if b.ax / 4 % 2 = 1 then [] else pair (b.ad / 2 % 2)) else []) ++
  (if a = 0x11 || a = 0x19 then (if b.ax / 4 % 2 = 1 then [] else [acc (b.ad % 4)]) else []) ++
  (if a = 0x24 then [acc (b.ad % 4), acc (b.as1 % 4)] else []) ++
  (if a = 0x20 || a = 0x21 then pair (b.as1 / 2 % 2) else []) ++
  (if a = 0x23 || a = 0x25 || a = 0x26 || a = 0x27 then [acc (b.as1 % 4)] else []) ++
  ([b.s0, b.s1].filter fun t => [0x2, 0x4, 0x6, 0x9, 0xA, 0xB].contains t.mop).map fun t => x.wkey b.v t.mw

/-- The cycle at which registers can be read: the engine stalls until then (R167). -/
def Engine.stall (x : Engine) (keys : List Nat) : Nat := keys.foldl (fun c k => max c (x.ready.get 0 k)) x.cycles

/-! ## Faults, aborts and halts (R170, R174, R179, R181, R461) -/

/-- DBG_HALT_N as the device drives it: low while a member of the cross-trigger group is HALTED (R461). -/
def State.haltLow (s : State) : Bool := s.stp.eng.ents.any fun e => e.2.xtrig && decide (e.2.st = .halted)

/-- A halt request at one engine (R461): an idle engine halts at once; a running one at its next boundary; one in a step as the step
ends, with CAUSE 4 (R462). -/
def State.haltOne (s : State) (e : Nat) (cause : BitVec 3) : State :=
  let x := s.eng e
  match x.st with
  | .idle => (s.returnPrefetch e).updEng e fun y => { y with st := .halted, cause := cause, forced := false }
  | .running => s.setEng e { x with st := .haltPending, reqCause := cause }
  | _ => s

/-- A member of the cross-trigger group has halted: every other member receives a request. -/
def State.crossTrigger (s : State) (e : Nat) : State :=
  if (s.eng e).xtrig then
    each ((s.stp.eng.ents.filter fun g => g.2.xtrig && g.1 != e).map (·.1)) (fun g s => s.haltOne g 5) s
  else s

/-- The task is being aborted: stage discarded, reservation cancelled; the engine waits for its transfers (R179). In a step
the engine stays HALTED (R463); a watch that has hit still halts it (R464). -/
def State.beginAbort (s : State) (e : Nat) (c : StippleCause) : State :=
  let step := (s.eng e).st = .stepping
  let s := s.updEng e fun x => { x with
    abort := some c, stage := [], resv := none, locked := false, rep := none, ending := false, wdExpired := false
    st := if step then .halted else if x.watched ∧ x.st = .running then .haltPending else x.st
    reqCause := if x.watched ∧ x.st = .running then 3 else x.reqCause, watched := false, cause := if step then 4 else x.cause }
  if step then s.crossTrigger e else s

/-- STIPPLE_FAULT at instruction `p` (R181, R349). -/
def State.faultAt (s : State) (e p : Nat) (c : StippleCause) : State :=
  let n := (s.eng e).task.getD 0
  let s := s.eventAt [s.pwr.owner] 0x0801 (taskDetail c.code p n e) s.tl.now
  (s.updEng e fun x => { x with pc := BitVec.ofNat 11 p, lastPc := BitVec.ofNat 11 p }).beginAbort e c

/-- A halt request, with what an engine that halts at once sets off. -/
def State.haltRequest (s : State) (e : Nat) (cause : BitVec 3) : State :=
  let t := s.haltOne e cause
  if (s.eng e).st ≠ .halted ∧ (t.eng e).st = .halted then t.crossTrigger e else t

/-- The engine is HALTED: its loads have landed, its prefetched task is returned, and its group is told (R461). -/
def State.doHalt (s : State) (e : Nat) (cause : BitVec 3) (forced : Bool) : State :=
  let s := (s.returnPrefetch e).updEng e fun x =>
    let y := x.loads.foldl Engine.land1 x
    { y with loads := [], st := .halted, cause := cause, forced := forced, watched := false, skipBreak := false }
  s.crossTrigger e

/-- A break or a watch halts the engine at this boundary; inside a locked sequence its halt is pending (R174, R461). -/
def State.haltAt (s : State) (e : Nat) (cause : BitVec 3) : State :=
  if (s.eng e).locked then
    s.updEng e fun x => { x with st := .haltPending, reqCause := if x.st = .haltPending then x.reqCause else cause }
  else s.doHalt e cause false

/-! ## Comparators (R464) -/

def Engine.cmpCount (e : Nat) : Nat := if isLead e then 8 else 2

/-- The comparator that breaks at instruction `p`. -/
def Engine.breakAt (x : Engine) (e p : Nat) : Option Nat :=
  (List.range (Engine.cmpCount e)).find? fun k =>
    let v := (x.cmps.get 0 k).toNat
    fld v 63 1 = 1 && fld v 61 2 = 0 && ((fld v 0 11 ^^^ p) &&& fld v 24 11) = 0

/-- The comparator that watches a read or write of the bytes from `a` on, and the address it hits. -/
def Engine.watchAt (x : Engine) (e a n : Nat) (write : Bool) : Option (Nat × Nat) :=
  (List.range (Engine.cmpCount e)).findSome? fun k =>
    let v := (x.cmps.get 0 k).toNat
    let kind := fld v 61 2
    if fld v 63 1 = 1 ∧ (kind = 3 ∨ (kind = 2 ∧ write) ∨ (kind = 1 ∧ ¬ write)) then
      (((List.range n).map (a + ·)).find? fun b => ((b ^^^ fld v 0 18) &&& fld v 24 18) = 0).map fun b => (k, b)
    else none

/-! ## Memory slots (R159, R165, R173, R177) -/

/-- Reverse the low 16 bits. -/
def rev16 (v : Nat) : Nat := ((List.range 16).map fun i => put (fld v i 1) (15 - i)).foldl (· + ·) 0

/-- The update of an address register by its mode (R159). -/
def addrUpdate (mam : Nat) (a m : Nat) : Nat :=
  let st := sgn 16 (fld m 0 16)
  let len := fld m 16 16
  let add := unsgn 24 ((a : Int) + st)
  match mam with
  | 0 => a
  | 1 => add
  | 2 =>
    if len = 0 then add
    else
      let k := Nat.clog 2 len
      let base := a / 2 ^ k * 2 ^ k
      (base + (((a - base : Nat) : Int) + st).emod len).toNat % 2 ^ 24
  | _ => a / 2 ^ 16 * 2 ^ 16 + rev16 ((rev16 (a % 2 ^ 16) + rev16 (fld m 0 16)) % 2 ^ 16)

/-- Bytes that a memory operation accesses. -/
def mopWidth (op : Nat) : Nat := if op = 3 || op = 4 then 4 else if op = 5 || op = 6 || op = 7 then 2 else 8
def mopLoads (op : Nat) : Bool := op = 1 || op = 3 || op = 5 || op = 7 || op = 8
def mopStores (op : Nat) : Bool := op = 2 || op = 4 || op = 6 || op = 9

/-- The data-memory byte address of a slot, low bits of its width ignored (R149). -/
def slotAddr (t : Slot) (a : Nat) : Nat := a % 2 ^ 18 / mopWidth t.mop * mopWidth t.mop

/-- Lanes that a load writes, and its value from the bytes read (R165). -/
def loadLanes (t : Slot) (v : Nat) : BitVec 4 × BitVec 64 :=
  match t.mop with
  | 3 => if t.mln % 2 = 0 then (0x3, BitVec.ofNat 64 v) else (0xC, BitVec.ofNat 64 (v * 2 ^ 32))
  | 5 => (BitVec.ofNat 4 (2 ^ t.mln), BitVec.ofNat 64 (v * 2 ^ (16 * t.mln)))
  | 7 => (0xF, lanesWord (List.replicate 4 (BitVec.ofNat 16 v)))
  | _ => (0xF, BitVec.ofNat 64 v)

/-- Bytes that a store writes. -/
def storeBytes (t : Slot) (w : BitVec 64) : List Byte :=
  match t.mop with
  | 4 => leBytes 4 (w.toNat / 2 ^ (32 * (t.mln % 2)))
  | 6 => leBytes 2 (w.toNat / 2 ^ (16 * t.mln))
  | _ => leBytes 8 w.toNat

/-- Note a watch hit; the first one gives WADDR. -/
def State.noteWatch (s : State) (e a n : Nat) (write : Bool) : State :=
  let x := s.eng e
  match x.watchAt e a n write with
  | some (k, b) =>
    if x.watched then s
    else s.setEng e { x with watched := true, cmp := BitVec.ofNat 3 k, waddr := BitVec.ofNat 18 b }
  | none => s

/-- A store into data memory under an alias; the word left with an uncorrectable error when it must merge (R149, R151). -/
def State.engStore (s : State) (e a : Nat) (bytes : List Byte) : State × Bool :=
  let o := a % 65536
  let lane := o % 8
  let d := List.replicate lane 0 ++ bytes ++ List.replicate (8 - lane - bytes.length) 0
  let be := List.replicate lane false ++ List.replicate bytes.length true ++ List.replicate (8 - lane - bytes.length) false
  s.dmemWord e (o / 8 * 8) (a / 65536) d be

/-- One memory slot of an instruction that issued at cycle `c`; `x` is the engine as it stood at issue. -/
def State.memSlot (s : State) (e : Nat) (x : Engine) (v : Bool) (t : Slot) (c : Nat) : Except (State × StippleCause) State :=
  let areg := (x.a.get 0 t.ma).toNat
  let a := slotAddr t areg
  let al := a / 65536
  let o := a % 65536
  let stage := fun i : StageItem =>
    if 32 ≤ (s.eng e).stage.length then .error (s, .stageFull)
    else .ok (s.updEng e fun y => { y with stage := y.stage ++ [i] })
  if t.mop = 0 then .ok s
  else if t.mop = 0xA then
    if 98303 < areg % 2 ^ 17 then .error (s, .badTarget)
    else stage (.push (areg % 2 ^ 17) (BitVec.ofNat 2 t.mln) (x.word v t.mw))
  else if t.mop = 0xB then stage (.token (areg % 2 ^ 13) t.mln (x.word v t.mw))
  else if (t.mop = 8 ∨ t.mop = 9) ∧ al ≠ 0 then .error (s, .illegal)
  else if al = 3 then .error (s, .alias_)
  else if mopLoads t.mop then
    if dmemWordBad s e o then .error (s.dmemBadEvent e o, .dmemEcc)
    else
      let l := loadLanes t (leNat (s.mem.dmem.readN (dmemAddr e o) (mopWidth t.mop)))
      let reg := if v then x.vphys t.mw else t.mw
      let s := s.updEng e fun y => { y with loads := y.loads ++ [{ v := v, reg := reg, lanes := l.1, value := l.2, due := c + 3 }] }
      let s := if t.mop = 8 then s.updEng e fun y => { y with resv := some (o / 8), locked := true } else s
      .ok (s.noteWatch e a (mopWidth t.mop) false)
  else if t.mop = 9 then
    if (s.eng e).resv = some (o / 8) then
      let r := s.engStore e o (leBytes 8 (x.word v t.mw).toNat)
      let s := r.1.updEng e fun y => { y with lkok := true, resv := none, locked := false }
      .ok (s.noteWatch e a 8 true)
    else .ok ((s.updEng e fun y => { y with lkok := false, locked := false }).noteWatch e a 8 true)
  else
    let r := s.engStore e a (storeBytes t (x.word v t.mw))
    if r.2 then .error (r.1, .dmemEcc) else .ok (r.1.noteWatch e a (mopWidth t.mop) true)

/-- The slot uses a data-memory bank. -/
def Slot.usesBank (t : Slot) : Bool := 1 ≤ t.mop && t.mop ≤ 9

/-- The banks of the slots are taken, slot 0 first; the cycle of the last access (R150). -/
def takeBanks (x : Engine) (c : Nat) : List Slot → Tab Nat → Nat → Tab Nat × Nat
  | [], f, last => (f, last)
  | t :: r, f, last =>
    if t.usesBank then
      let a := slotAddr t (x.a.get 0 t.ma).toNat
      let b := a / 8 % 4
      let start := max c (f.get 0 b)
      let hold := if mopStores t.mop && a / 65536 ≠ 0 then 2 else 1
      takeBanks x c r (f.set 0 b (start + hold)) (max last start)
    else takeBanks x c r f last

/-! ## After an instruction has issued (R169-R172) -/

/-- The PC moves past instruction `p`, with the end of a loop's iteration (R172). -/
def Engine.advance (x : Engine) (p : Nat) : Engine :=
  match x.loop with
  | some (f, l, rot) =>
    if p = l.toNat then
      let y : Engine := { x with lcount := x.lcount - 1, rbase := if rot then x.rbase - 1 else x.rbase }
      if y.lcount.toNat = 0 then { y with loop := none, pc := BitVec.ofNat 11 (p + 1) } else { y with pc := f }
    else { x with pc := BitVec.ofNat 11 (p + 1) }
  | none => { x with pc := BitVec.ofNat 11 (p + 1) }

/-- A return address is pushed (R147). -/
def Engine.push (x : Engine) (t : BitVec 11) : Engine := { x with stack := x.stack.set 0 x.depth t, depth := x.depth + 1 }

/-- A taken branch leaves any running loop (R172). -/
def Engine.branch (x : Engine) (t : Nat) : Engine := { x with pc := BitVec.ofNat 11 t, loop := none, lcount := 0 }

/-- The instruction boundary: the end of a REPEAT, a watchdog that waited for it, a step or a watch that halts. -/
def State.boundary (s : State) (e : Nat) : State :=
  let x := s.eng e
  if x.rep.isSome ∨ x.ending then s
  else if x.wdExpired then s.beginAbort e .watchdog
  else if x.st = .stepping then s.doHalt e 4 false
  else if x.watched then s.haltAt e 3
  else s

/-- An instruction that the engine cannot issue as it stands. -/
def State.issueBundle (s : State) (e p : Nat) (b : Bundle) : State :=
  let x0 := s.eng e
  if b.illegal then s.faultAt e p .illegal
  else
    let c := x0.stall (x0.reads b)
    let x := x0.land c
    let bk := takeBanks x c [b.s0, b.s1] x.bankFree c
    let upd := fun (t : Slot) (y : Engine) =>
      if t.mop = 0 ∨ t.mam = 0 then y
      else { y with a := y.a.set 0 t.ma (BitVec.ofNat 24 (addrUpdate t.mam (x.a.get 0 t.ma).toNat (x.m.get 0 t.mm).toNat)) }
    let y := upd b.s1 (upd b.s0 (x.arithOp b c))
    let s := s.setEng e { y with bankFree := bk.1, cycles := bk.2 + 1, lastPc := BitVec.ofNat 11 p, skipBreak := false }
    match s.memSlot e x b.v b.s0 c with
    | .error (s, f) => s.faultAt e p f
    | .ok s =>
      match s.memSlot e x b.v b.s1 c with
      | .error (s, f) => s.faultAt e p f
      | .ok s =>
        let z := s.eng e
        let z := match z.rep with
          | some n => if n ≤ 1 then ({ z with rep := none }).advance p else { z with rep := some (n - 1), skipBreak := true }
          | none => z.advance p
        (s.setEng e z).boundary e

/-! ## Special registers (R154) -/

def State.statusWord (x : Engine) : Nat :=
  pack [(bit x.z, 15), (bit x.n, 14), (bit x.lkok, 13), (bit x.herr, 12), (bit x.aovf, 11), (bit x.oovf, 10), (x.xfers.length, 5),
    (x.depth, 0)]

/-- The 32 bits of a special register. -/
def State.special (s : State) (e code : Nat) : Nat :=
  let x := s.eng e
  match code with
  | 0 => x.arith.toNat
  | 1 => State.statusWord x
  | 2 => x.task.getD 0
  | 3 => e
  | 4 => s.heathNow (engHeath e) % secU / nsU
  | 5 => x.cycles % 2 ^ 32
  | 6 => x.rbase.toNat
  | _ => BitVec.toNat x.lcount

/-- A write to a special register: read-only ones ignore it; the error flags clear on one. -/
def Engine.setSpecial (x : Engine) (code : Nat) (v : Nat) : Engine :=
  match code with
  | 0 => { x with arith := BitVec.ofNat 32 (v % 256) }
  | 1 => { x with
      z := fld v 15 1 = 1, n := fld v 14 1 = 1, herr := x.herr && fld v 12 1 = 0, aovf := x.aovf && fld v 11 1 = 0
      oovf := x.oovf && fld v 10 1 = 0 }
  | 6 => { x with rbase := BitVec.ofNat 6 v }
  | _ => x

/-! ## Control operations (R166, R169, R172, R175) -/

/-- The branch condition CA holds. -/
def Engine.cond (x : Engine) (ca : Nat) : Bool :=
  match ca with
  | 0 => true | 1 => x.z | 2 => !x.z | 3 => x.n | 4 => !x.n | 5 => x.lkok | 6 => !x.lkok | _ => x.herr

/-- W registers a control operation reads. -/
def Ctl.reads (x : Engine) (c : Ctl) : List Nat :=
  match c.cop with
  | 0x0B => [c.ca] | 0x0D => [c.ca] | 0x0E => [c.cb] | 0x10 => [c.ca] | 0x11 => [64 + x.vphys (c.cx % 64)]
  | 0x12 => [c.cb] | 0x13 => [c.cb] | _ => []

/-- The transfer of HGET or HPUT, or none when the instruction is ILLEGAL (R175). Its start is aligned down to 8 bytes (R205),
in data memory as well, whose accesses ignore the address bits below their width (R149). -/
def Ctl.xfer (c : Ctl) (x : Engine) : Option Xfer :=
  let n := c.imm % 2 ^ 13
  let loc := (x.a.get 0 c.ca).toNat % 2 ^ 16 / 8 * 8
  let d := (x.w.get 0 c.cb).toNat
  if n % 8 ≠ 0 ∨ n = 0 ∨ 4096 < n ∨ 65536 < loc + n then none
  else some { put := c.cop = 0x13, loc := loc, handle := fld d 0 20, off := fld d 20 36 / 8 * 8, len := n, world := x.world }

/-- A control operation at index `p`. A stalled HWAIT, HGET or HPUT takes a cycle and stays. -/
def State.issueCtl (s : State) (e p : Nat) (c : Ctl) : State :=
  let x0 := s.eng e
  let lead := isLead e
  if x0.rep.isSome ∨ c.illegal lead then s.faultAt e p .illegal
  else
    let cy := x0.stall (c.reads x0)
    let x := { x0.land cy with cycles := cy + 1, lastPc := BitVec.ofNat 11 p, skipBreak := false }
    let done := fun y : Engine => (s.setEng e y).boundary e
    let next := fun y : Engine => done (y.advance p)
    let taken := fun (y : Engine) (t : Nat) => done { y.branch t with cycles := y.cycles + 2 }
    let wa := x.w.get 0 c.ca
    let wb := x.w.get 0 c.cb
    let count := if c.cx % 2 = 1 then (x.a.get 0 c.cb).toNat % 2 ^ 16 else c.imm % 2 ^ 16
    let result := fun d : BitVec 64 => x.result false c.ca d cy 1
    match c.cop with
    | 0x00 => next x
    | 0x01 => if x.cond c.ca then taken x (c.imm % 2048) else next x
    | 0x02 =>
      if 8 ≤ x.depth then s.faultAt e p .stack
      else taken (x.push (BitVec.ofNat 11 (p + 1))) (c.imm % 2048)
    | 0x03 =>
      if x.depth = 0 then s.faultAt e p .stack
      else taken { x with depth := x.depth - 1 } (x.stack.get 0 (x.depth - 1)).toNat
    | 0x04 =>
      if count = 0 then done ((x.advance p).advance (p + 1))
      else done { x.advance p with rep := some count }
    | 0x05 =>
      let last := fld c.imm 16 11
      let isB := match s.insAt e last with | .bundle _ => true | .ctl _ => false | .bad => false
      if x.loop.isSome ∨ last < p + 1 ∨ p + 256 < last ∨ isB = false then s.faultAt e p .illegal
      else if count = 0 then done { x with pc := BitVec.ofNat 11 (last + 1) }
      else done { x with
        loop := some (BitVec.ofNat 11 (p + 1), BitVec.ofNat 11 last, c.cx / 2 % 2 = 1)
        lcount := BitVec.ofNat 16 count, pc := BitVec.ofNat 11 (p + 1) }
    | 0x06 => s.setEng e { x.advance p with ending := true, resv := none, locked := false }
    | 0x07 => next { x with a := x.a.set 0 c.ca (BitVec.ofNat 24 c.imm) }
    | 0x08 => next { x with m := x.m.set 0 c.ca (BitVec.ofNat 32 c.imm) }
    | 0x09 => next { x with a := x.a.upd 0 c.ca (· + BitVec.ofNat 24 c.imm) }
    | 0x0A =>
      let u := (x.a.get 0 c.ca).toInt
      let v := if c.cx % 2 = 1 then sgn 24 c.imm else (x.a.get 0 c.cb).toInt
      next { x with z := u = v, n := u < v }
    | 0x0B =>
      let m := BitVec.ofNat 4 (2 ^ (c.cx % 4))
      next (result (mergeLanes wa (lanesWord (List.replicate 4 (BitVec.ofNat 16 c.imm))) m))
    | 0x0C => next (result (BitVec.ofNat 64 (s.special e (c.cx % 16))))
    | 0x0D => next (x.setSpecial (c.cx % 16) (wa.toNat % 2 ^ 32))
    | 0x0E => next { x with a := x.a.set 0 c.ca (wb.setWidth 24) }
    | 0x0F => next (result ((x.a.get 0 c.cb).setWidth 64))
    | 0x10 => next (x.result true (c.cx % 64) wa cy 1)
    | 0x11 => next (result (x.word true (c.cx % 64)))
    | 0x14 => if c.imm % 32 < x.xfers.length then s.setEng e { x0 with cycles := x0.cycles + 1 } else next x
    | _ =>
      match c.xfer x with
      | none => s.faultAt e p .illegal
      | some t =>
        if 16 ≤ x.xfers.length then s.setEng e { x0 with cycles := x0.cycles + 1 }
        else next { x with xfers := x.xfers ++ [t] }

/-! ## Issue -/

/-- The engine issues instructions: it runs a task, its clock runs, and no halt, abort or END holds it (R170, R461). A halt
that is pending lets it go on only inside a REPEAT or a locked sequence. -/
def State.issues (s : State) (e : Nat) : Bool :=
  let x := s.eng e
  s.netUp && x.task.isSome && x.abort.isNone && !x.ending && decide ((s.row (engRow e)).gate ≠ .gated) &&
    (decide (x.st = .running) || decide (x.st = .stepping) || (decide (x.st = .haltPending) && (x.rep.isSome || x.locked)))

/-- The comparator that breaks at the PC: not in a step, and not where the engine left HALTED (R462, R464). -/
def Engine.breaks (x : Engine) (e : Nat) : Option Nat :=
  if x.skipBreak || decide (x.st = .stepping) then none else x.breakAt e x.pc.toNat

/-- Engine `e` issues the instruction at its PC, when it holds an operation that `p` picks. An uncorrectable instruction
is a fault whatever it held (R151); a break halts before the instruction issues, and in a REPEAT at the first issue only. In a
locked sequence, which defers the halt, the instruction issues (R461). -/
def State.issue (s : State) (e : Nat) (pick : Ins → Bool) : State :=
  let x := s.eng e
  let p := x.pc.toNat
  if ¬ s.issues e then s
  else if s.mem.pmemBad.get false (2048 * e + p) then
    (s.memUncorrectable 4 e p 0).faultAt e p .pmemEcc
  else
    let i := s.insAt e p
    if ¬ pick i then s
    else
      let s := match x.breaks e with
        | some k => (s.updEng e fun y => { y with cmp := BitVec.ofNat 3 k }).haltAt e 2
        | none => s
      if (s.eng e).st = .halted then s
      else
        match i with
        | .bundle b => s.issueBundle e p b
        | .ctl c => s.issueCtl e p c
        | .bad => s.faultAt e p .illegal

/-- The instruction is a bundle with this arithmetic operation. -/
def hasAop (a : Nat) : Ins → Bool
  | .bundle b => b.aop = a
  | _ => false

/-- The instruction is a bundle with this memory operation in a slot. -/
def hasMop (m : Nat) : Ins → Bool
  | .bundle b => b.s0.mop = m || b.s1.mop = m
  | _ => false

/-- The instruction is this control operation. -/
def hasCop (k : Nat) : Ins → Bool
  | .ctl c => c.cop = k
  | _ => false

/-- ANOP's row also issues what no operation's row could: a word of no format, and an unlisted AOP (log 18). -/
def hasAnop (i : Ins) : Bool :=
  match i with
  | .bundle b => b.aop = 0 || !aops.contains b.aop
  | .bad => true
  | .ctl _ => false

/-- CNOP's row also issues an unlisted COP (log 18). -/
def hasCnop (i : Ins) : Bool :=
  match i with
  | .ctl c => c.cop = 0 || 0x14 < c.cop
  | _ => false

end Sys2Proof.Machine
end

