-- ==== Sys2Proof/Machine/Stipple.lean ====
section
/-! DEFINITION. The stipple operations, one meaning for each: engine `e` issues the instruction at its PC when that holds the operation
(R155-R177; log 18). Transfers, commit, watchdog, aborts, resets and the row commands follow. -/

namespace Sys2Proof.Machine

/-! ## Arithmetic operations (R164) -/

/-- ANOP. -/
def execOpAnop (e : EngineId) (s : State) : Res := .next (s.issue e hasAnop)

/-- CMAC2, AOP 0x10. -/
def execOpCmac2 (e : EngineId) (s : State) : Res := .next (s.issue e (hasAop 0x10))

/-- CDOT, AOP 0x11. -/
def execOpCdot (e : EngineId) (s : State) : Res := .next (s.issue e (hasAop 0x11))

/-- XMAC2, AOP 0x18. -/
def execOpXmac2 (e : EngineId) (s : State) : Res := .next (s.issue e (hasAop 0x18))

/-- XDOT, AOP 0x19. -/
def execOpXdot (e : EngineId) (s : State) : Res := .next (s.issue e (hasAop 0x19))

/-- RND2, AOP 0x20. -/
def execOpRnd2 (e : EngineId) (s : State) : Res := .next (s.issue e (hasAop 0x20))

/-- XRND2, AOP 0x21. -/
def execOpXrnd2 (e : EngineId) (s : State) : Res := .next (s.issue e (hasAop 0x21))

/-- ACLR, AOP 0x22. -/
def execOpAclr (e : EngineId) (s : State) : Res := .next (s.issue e (hasAop 0x22))

/-- AMOV, AOP 0x23. -/
def execOpAmov (e : EngineId) (s : State) : Res := .next (s.issue e (hasAop 0x23))

/-- AADD, AOP 0x24. -/
def execOpAadd (e : EngineId) (s : State) : Res := .next (s.issue e (hasAop 0x24))

/-- EXPA, AOP 0x25. -/
def execOpExpa (e : EngineId) (s : State) : Res := .next (s.issue e (hasAop 0x25))

/-- NORMA, AOP 0x26. -/
def execOpNorma (e : EngineId) (s : State) : Res := .next (s.issue e (hasAop 0x26))

/-- ASHR, AOP 0x27. -/
def execOpAshr (e : EngineId) (s : State) : Res := .next (s.issue e (hasAop 0x27))

/-- ADD4, AOP 0x30. -/
def execOpAdd4 (e : EngineId) (s : State) : Res := .next (s.issue e (hasAop 0x30))

/-- SUB4, AOP 0x31. -/
def execOpSub4 (e : EngineId) (s : State) : Res := .next (s.issue e (hasAop 0x31))

/-- BFLY, AOP 0x32. -/
def execOpBfly (e : EngineId) (s : State) : Res := .next (s.issue e (hasAop 0x32))

/-- SHL4, AOP 0x34. -/
def execOpShl4 (e : EngineId) (s : State) : Res := .next (s.issue e (hasAop 0x34))

/-- SHRA4, AOP 0x35. -/
def execOpShra4 (e : EngineId) (s : State) : Res := .next (s.issue e (hasAop 0x35))

/-- AND, AOP 0x36. -/
def execOpAnd (e : EngineId) (s : State) : Res := .next (s.issue e (hasAop 0x36))

/-- OR, AOP 0x37. -/
def execOpOr (e : EngineId) (s : State) : Res := .next (s.issue e (hasAop 0x37))

/-- XOR, AOP 0x38. -/
def execOpXor (e : EngineId) (s : State) : Res := .next (s.issue e (hasAop 0x38))

/-- MOV, AOP 0x39. -/
def execOpMov (e : EngineId) (s : State) : Res := .next (s.issue e (hasAop 0x39))

/-- CONJ, AOP 0x3A. -/
def execOpConj (e : EngineId) (s : State) : Res := .next (s.issue e (hasAop 0x3A))

/-- SWAP, AOP 0x3B. -/
def execOpSwap (e : EngineId) (s : State) : Res := .next (s.issue e (hasAop 0x3B))

/-- EXPW, AOP 0x3C. -/
def execOpExpw (e : EngineId) (s : State) : Res := .next (s.issue e (hasAop 0x3C))

/-- CMPW, AOP 0x3D. -/
def execOpCmpw (e : EngineId) (s : State) : Res := .next (s.issue e (hasAop 0x3D))

/-! ## Memory operations (R165) -/


/-- MNOP, MOP 0x0. -/
def execOpMnop (e : EngineId) (s : State) : Res := .next (s.issue e (hasMop 0x0))

/-- LD, MOP 0x1. -/
def execOpLd (e : EngineId) (s : State) : Res := .next (s.issue e (hasMop 0x1))

/-- ST, MOP 0x2. -/
def execOpSt (e : EngineId) (s : State) : Res := .next (s.issue e (hasMop 0x2))

/-- LDH, MOP 0x3. -/
def execOpLdh (e : EngineId) (s : State) : Res := .next (s.issue e (hasMop 0x3))

/-- STH, MOP 0x4. -/
def execOpSth (e : EngineId) (s : State) : Res := .next (s.issue e (hasMop 0x4))

/-- LDL, MOP 0x5. -/
def execOpLdl (e : EngineId) (s : State) : Res := .next (s.issue e (hasMop 0x5))

/-- STL, MOP 0x6. -/
def execOpStl (e : EngineId) (s : State) : Res := .next (s.issue e (hasMop 0x6))

/-- LDB, MOP 0x7. -/
def execOpLdb (e : EngineId) (s : State) : Res := .next (s.issue e (hasMop 0x7))

/-- LDX, MOP 0x8. -/
def execOpLdx (e : EngineId) (s : State) : Res := .next (s.issue e (hasMop 0x8))

/-- STX, MOP 0x9. -/
def execOpStx (e : EngineId) (s : State) : Res := .next (s.issue e (hasMop 0x9))

/-- QPUSH, MOP 0xA. -/
def execOpQpush (e : EngineId) (s : State) : Res := .next (s.issue e (hasMop 0xA))

/-- TOKEN, MOP 0xB. -/
def execOpToken (e : EngineId) (s : State) : Res := .next (s.issue e (hasMop 0xB))

/-! ## Control operations (R166) -/

/-- CNOP. -/
def execOpCnop (e : EngineId) (s : State) : Res := .next (s.issue e hasCnop)

/-- BR, COP 0x01. -/
def execOpBr (e : EngineId) (s : State) : Res := .next (s.issue e (hasCop 0x01))

/-- CALL, COP 0x02. -/
def execOpCall (e : EngineId) (s : State) : Res := .next (s.issue e (hasCop 0x02))

/-- RET, COP 0x03. -/
def execOpRet (e : EngineId) (s : State) : Res := .next (s.issue e (hasCop 0x03))

/-- REPEAT, COP 0x04. -/
def execOpRepeat (e : EngineId) (s : State) : Res := .next (s.issue e (hasCop 0x04))

/-- LOOP, COP 0x05. -/
def execOpLoop (e : EngineId) (s : State) : Res := .next (s.issue e (hasCop 0x05))

/-- END, COP 0x06. -/
def execOpEnd (e : EngineId) (s : State) : Res := .next (s.issue e (hasCop 0x06))

/-- SETA, COP 0x07. -/
def execOpSeta (e : EngineId) (s : State) : Res := .next (s.issue e (hasCop 0x07))

/-- SETM, COP 0x08. -/
def execOpSetm (e : EngineId) (s : State) : Res := .next (s.issue e (hasCop 0x08))

/-- ADDA, COP 0x09. -/
def execOpAdda (e : EngineId) (s : State) : Res := .next (s.issue e (hasCop 0x09))

/-- CMPA, COP 0x0A. -/
def execOpCmpa (e : EngineId) (s : State) : Res := .next (s.issue e (hasCop 0x0A))

/-- MVW, COP 0x0B. -/
def execOpMvw (e : EngineId) (s : State) : Res := .next (s.issue e (hasCop 0x0B))

/-- MVS, COP 0x0C. -/
def execOpMvs (e : EngineId) (s : State) : Res := .next (s.issue e (hasCop 0x0C))

/-- MSV, COP 0x0D. -/
def execOpMsv (e : EngineId) (s : State) : Res := .next (s.issue e (hasCop 0x0D))

/-- MVAW, COP 0x0E. -/
def execOpMvaw (e : EngineId) (s : State) : Res := .next (s.issue e (hasCop 0x0E))

/-- MVWA, COP 0x0F. -/
def execOpMvwa (e : EngineId) (s : State) : Res := .next (s.issue e (hasCop 0x0F))

/-- VMOV, COP 0x10. -/
def execOpVmov (e : EngineId) (s : State) : Res := .next (s.issue e (hasCop 0x10))

/-- WMOV, COP 0x11. -/
def execOpWmov (e : EngineId) (s : State) : Res := .next (s.issue e (hasCop 0x11))

/-- HGET, COP 0x12. -/
def execOpHget (e : EngineId) (s : State) : Res := .next (s.issue e (hasCop 0x12))

/-- HPUT, COP 0x13. -/
def execOpHput (e : EngineId) (s : State) : Res := .next (s.issue e (hasCop 0x13))

/-- HWAIT, COP 0x14. -/
def execOpHwait (e : EngineId) (s : State) : Res := .next (s.issue e (hasCop 0x14))

/-! ## Hedgerow transfers (R175) -/

/-- The engine as a requester, in the world its task started with (R153, R197). -/
def engAsker (e : Nat) (w : Bool) : Asker := { kind := 5, index := e, world := w }

/-- Parts of a transfer that cross no 4 KiB boundary of the buffer (R205): buffer offset, local address, length. -/
def Xfer.parts (t : Xfer) : List (Nat × Nat × Nat) := (spans t.off t.len).map fun p => (p.1, t.loc + (p.1 - t.off), p.2)

/-- What HGET writes for `n` bytes: zeros for the lines that it could not read, and for all of a read that ends DENIED. -/
def hgetBytes (l : List LineGot) (n : Nat) : List Byte :=
  let d := if lineStatus l = hsDenied then [] else l.flatMap fun g => if g.st = hsOk then g.data else List.replicate g.data.length 0
  d ++ List.replicate (n - d.length) 0

/-- HGET: the bytes land in data memory, zeros where they could not be read. -/
def State.hgetPart (s : State) (e : Nat) (t : Xfer) (p : Nat × Nat × Nat) : State :=
  let (s, l) := s.bufFetch (engAsker e t.world) t.handle p.1 p.2.2
  let d := hgetBytes l p.2.2
  let s := each (List.range (p.2.2 / 8)) (fun i s =>
    (s.dmemWord e (p.2.1 + 8 * i) 0 ((d.drop (8 * i)).take 8) (List.replicate 8 true)).1) s.serveAll
  let s := s.extDelay e (p.2.2 / 8)
  if lineStatus l = hsOk then s else s.updEng e fun x => { x with herr := true }

/-- HPUT: the local bytes go to the buffer; a word with an uncorrectable error goes as zero, with HERR and its event. -/
def State.hputPart (s : State) (e : Nat) (t : Xfer) (p : Nat × Nat × Nat) : State :=
  let words := (List.range (p.2.2 / 8)).map fun i => p.2.1 + 8 * i
  let bad := words.filter (dmemWordBad s e)
  let d := words.flatMap fun o => if dmemWordBad s e o then List.replicate 8 (0 : Byte) else s.mem.dmem.readN (dmemAddr e o) 8
  let s := each bad (fun o s => s.dmemBadEvent e o) s
  let g := (s.extDelay e words.length).bufPut (engAsker e t.world) t.handle p.1 d
  if g.st = hsOk ∧ bad = [] then g.s else g.s.updEng e fun x => { x with herr := true }

/-- Two transfers touch one line of a buffer. -/
def Xfer.meets (t u : Xfer) : Bool :=
  t.handle = u.handle && t.off / 64 ≤ (u.off + u.len - 1) / 64 && u.off / 64 ≤ (t.off + t.len - 1) / 64

/-- Transfer `i` may end: no earlier one of the engine that is outstanding meets it (R209). -/
def Engine.xferFree (x : Engine) (i : Nat) (t : Xfer) : Bool := (x.xfers.take i).all fun u => !u.meets t

/-- HEDGEROW_TRANSFER_END: transfer `i` has written its last byte, and HOUT falls. Transfers of one engine that touch the same
line take effect in issue order (R209). -/
def execHedgerowTransferEnd (e : EngineId) (i : Nat) (s : State) : Res :=
  match (s.eng e).xfers[i]? with
  | some t =>
    if s.alive ∧ s.pwr.mode ≠ .hold ∧ (s.eng e).xferFree i t then
      let s := each t.parts (fun p s => if t.put then s.hputPart e t p else s.hgetPart e t p) s
      .next (s.updEng e fun x => { x with xfers := x.xfers.eraseIdx i })
    else .next s
  | none => .next s

/-! ## Commit, watchdog, abort (R178-R181, R195) -/

/-- TASK_COMMIT: END has issued and HOUT is zero. A step whose instruction was END halts again (R462). -/
def execTaskCommit (e : EngineId) (s : State) : Res :=
  let x := s.eng e
  match x.task with
  | some n =>
    if s.netUp ∧ x.ending ∧ x.xfers = [] ∧ x.abort = none then
      let s := (s.commitTask e n).updEng e fun y => { y with st := if y.st = .running then .idle else y.st }
      if x.st = .stepping then .next (s.doHalt e 4 false) else .next s
    else .next s
  | none => .next s

/-- ENGINE_WATCHDOG_EXPIRY: the count has reached zero; inside a REPEAT the abort waits for its end (R170, R179). -/
def execEngineWatchdogExpiry (e : EngineId) (s : State) : Res :=
  let x := s.eng e
  if x.wdogOn ∧ x.wdog = 0 ∧ x.task.isSome ∧ x.abort = none ∧ x.st ≠ .halted then
    let s := s.updEng e fun y => { y with wdogOn := false }
    if x.rep.isSome then .next (s.updEng e fun y => { y with wdExpired := true }) else .next (s.beginAbort e .watchdog)
  else .next s

/-- TASK_ABORT_COMPLETE: the engine's transfers have ended and the scheduler takes the task back (R179, R197, R198). -/
def execTaskAbortComplete (e : EngineId) (s : State) : Res :=
  let x := s.eng e
  match x.abort, x.task with
  | some c, some n =>
    if x.xfers ≠ [] ∨ ¬ s.netUp then .next s
    else
      let s := match c with
        | .watchdog | .dmemEcc | .pmemEcc => s.countedReturn e n c
        | _ => ((s.giveResv (entHeath n) (s.ent n)).keepPc e n).holdTask n c
      .next (s.updEng e fun y => { y with
        abort := none, task := none, wdogOn := false, loop := none, loads := []
        st := if y.st = .running ∨ y.st = .stepping then .idle else y.st })
  | _, _ => .next s

/-! ## Resets (R182, R199, R463) -/

/-- An engine reset: at once, even inside a REPEAT or a locked sequence. The running task stands ahead of the prefetched one. -/
def State.engineReset (s : State) (e : Nat) : State :=
  let s := s.returnPrefetch e
  let s := match (s.eng e).task with | some n => (s.keepPc e n).returnTask n | none => s
  s.updEng e fun x => { x with
    task := none, stage := [], resv := none, locked := false, rep := none, loop := none, loads := [], ending := false, abort := none
    wdogOn := false, wdExpired := false, watched := false, st := .idle }

def execEngineReset (h : HostId) (s : State) : Res :=
  runCmd h 0x0804 anyCmd (fun s h c =>
    let e := c.f 0 0 9
    if ¬ reaches c.world (s.row (engRow e)).world then .denied s h c else { s := s.engineReset e }) s

/-- A command on a row whose world the host must reach. -/
def onRow (f : State → Nat → Nat → Cmd → Ans) (s : State) (h : Nat) (c : Cmd) : Ans :=
  let r := c.f 0 0 5
  if ¬ reaches c.world (s.row r).world then .denied s h c else f s h r c

/-- Engines of a row. -/
def rowEngines (r : Nat) : List Nat := (List.range 16).map (16 * r + ·)

def execRowReset (h : HostId) (s : State) : Res :=
  runCmd h 0x0803 anyCmd (onRow fun s _ r _ =>
    { s := (each (rowEngines r) (fun e s => s.engineReset e) s).updRow r fun x => { x with resetSince := true } }) s

def execRowConfigure (h : HostId) (s : State) : Res :=
  runCmd h 0x0802 anyCmd (onRow fun s _ r c =>
    { s := s.updRow r fun x => { x with period := c.f 1 0 20, limit := c.f 1 24 4 } }) s

/-! ## Draining a row: self-test and ROW_LOAD (R152, R200, R463) -/

/-- The row becomes draining and the tasks in its prefetch slots are returned. -/
def State.drainRow (s : State) (r : Nat) : State :=
  (each (rowEngines r) (fun e s => s.returnPrefetch e) s).updRow r fun x => { x with draining := true }

/-- Every running task of the row has committed or has been returned. -/
def State.rowDrained (s : State) (r : Nat) : Bool :=
  (rowEngines r).all fun e => (s.eng e).task.isNone && (s.eng e).prefetch.isNone && (s.eng e).xfers.isEmpty

/-- The row resumes when nothing more waits for it. -/
def Row.settle (x : Row) : Row := { x with draining := !x.tests.isEmpty || !x.loads.isEmpty || x.gateCmd.isSome }

def execRowSelftest (h : HostId) (s : State) : Res :=
  runCmd h 0x0A05 anyCmd (onRow fun s h r c =>
    .queued ((s.drainRow r).updRow r fun x => { x with tests := x.tests ++ [c.bg h] })) s

/-- The registers of an engine after a self-test, those of R147 and the special ones of R154: free values, as many as the engine
has registers (R200, log 10). -/
def Engine.scramble (x : Engine) (lead : Bool) (f : Nat → BitVec 64) : Engine :=
  let file := fun (lo n w : Nat) => (List.range n).map fun i => (f (lo + i)).setWidth w
  { x with
    w := ({} : Tab (BitVec 64)).setFrom 0 0 (file 0 16 64), a := ({} : Tab (BitVec 24)).setFrom 0 0 (file 24 8 24)
    m := ({} : Tab (BitVec 32)).setFrom 0 0 (file 32 8 32)
    v := if lead then ({} : Tab (BitVec 64)).setFrom 0 0 (file 40 64 64) else x.v
    rbase := if lead then (f 104).setWidth 6 else x.rbase, lcount := if lead then (f 105).setWidth 16 else x.lcount
    arith := BitVec.ofNat 32 ((f 106).toNat % 256), pc := (f 107).setWidth 11, cycles := (f 108).toNat % 2 ^ 32
    z := (f 109).getLsbD 15, n := (f 109).getLsbD 14, lkok := (f 109).getLsbD 13, herr := (f 109).getLsbD 12
    aovf := (f 109).getLsbD 11, oovf := (f 109).getLsbD 10
    stack := ({} : Tab (BitVec 11)).setFrom 0 0 (file 110 8 11), depth := (f 109).toNat % 9
    acc := ({} : Tab Acc).setFrom {} 0 ((List.range 4).map fun i =>
      { re := (f (16 + i)).setWidth 48, im := (f (20 + i)).setWidth 48 }) }

/-- The self-test overwrites the registers of the row's engines; program and data memory stay. -/
def State.scrambleRow (s : State) (r : Nat) : State :=
  each (rowEngines r) (fun e s =>
    { s.updEng e fun x => x.scramble (isLead e) fun i => Config.freeValue (s.free + i) with free := s.free + 118 }) s

/-- ROW_SELFTEST_RUN: the test runs on the drained row. -/
def execRowSelftestRun (r : RowId) (s : State) : Res :=
  let x := s.row r
  if s.netUp ∧ x.tests ≠ [] ∧ ¬ x.testing ∧ x.gate = .opened ∧ s.rowDrained r then
    .next ((s.scrambleRow r).setRow r { x with testing := true })
  else .next s

/-- ROW_SELFTEST_DONE: OK, and the row resumes dispatch, or FAILED, and it goes offline. An offline row returns only when a
row reset came before a passing test. -/
def execRowSelftestDone (r : RowId) (ok : Bool) (s : State) : Res :=
  let x := s.row r
  match x.tests with
  | b :: rest =>
    if ¬ x.testing then .next s
    else
      let s := s.setRow r ({ x with
        tests := rest, testing := false, offline := if ok then x.offline && !x.resetSince else true, resetSince := false }).settle
      let s := if ok then s else s.ownerEvent 0x0805 [r.val]
      .next (s.finish b (if ok then stOk else stFailed))
  | [] => .next s

/-- ROW_LOAD: QUEUED, and the row drains. A buffer out of the host's reach is DENIED. -/
def execRowLoad (h : HostId) (s : State) : Res :=
  runCmd h 0x0801 anyCmd (onRow fun s h r c =>
    let hd := c.f 1 0 20
    match s.buf hd with
    | none => .bad s 1 0
    | some b =>
      if b.isStore ∨ ¬ reaches c.world b.world then .denied s h c
      else .queued ((s.drainRow r).updRow r fun x => { x with
        loads := x.loads ++ [(c.bg h, hd, c.f 1 20 36, c.arg 2, c.world)] })) s

/-- The image reaches an engine: program and data memory, zero where the image gives nothing (R152). -/
def State.loadEngine (s : State) (i : Config.RowImage) (e : Nat) : State :=
  let code := if isLead e then i.leadCode else i.code
  let data := if isLead e then i.leadData else i.data
  { s with
    mem.pmem := (s.mem.pmem.drop fun k => k / 2048 = e).setFrom 0 (2048 * e) (code.take 2048)
    mem.pmemBad := s.mem.pmemBad.drop fun k => k / 2048 = e
    mem.dmem := (s.mem.dmem.clear (65536 * e) 65536).writeN (65536 * e) (data.take 65536)
    mem.dmemBad := s.mem.dmemBad.drop fun k => k / 8192 = e }

/-- ROW_LOAD_DONE: the drained row takes its images and resumes; a malformed image is FAILED. -/
def execRowLoadDone (r : RowId) (s : State) : Res :=
  let x := s.row r
  match x.loads with
  | (b, hd, off, n, w) :: rest =>
    if ¬ s.netUp ∨ ¬ s.rowDrained r ∨ x.testing ∨ x.gate ≠ .opened then .next s
    else
      let g := s.bufRead (forCommand b.host w) hd off n
      let s := g.s.updRow r fun y => ({ y with loads := rest } : Row).settle
      match (if g.st = hsOk then Config.rowImage g.data else none) with
      | some i => .next ((each (rowEngines r) (fun e s => s.loadEngine i e) s).finish b stOk)
      | none => .next (s.finish b stFailed)
  | [] => .next s

/-- The world of a row changes: prefetched tasks that no longer match are returned, running ones go on (R197). -/
def State.setRowWorld (s : State) (r : Nat) (w : Bool) : State :=
  let s := s.updRow r fun x => { x with world := w }
  each (rowEngines r) (fun e s =>
    match (s.eng e).prefetch with
    | some n => if (s.ent n).world = w then s else s.returnPrefetch e
    | none => s) s

end Sys2Proof.Machine
end

