-- ==== Sys2Proof/Machine/Hedgerow.lean ====
section
/-! DEFINITION. Hedgerow transactions and the hedgerow gate (spec/10_hedgerow_and_pool.md). A transaction is served in one step; its
response waits in `hg.resp` until HEDGEROW_RESPONSE delivers it (log 19). -/

namespace Sys2Proof.Machine

/-! ## Requesters and responses (R207, R208) -/

def Asker.requester (a : Asker) : Requester := { kind := a.kind, index := a.index }

/-- The response of a request falls due. -/
def State.hgAnswer (s : State) (r : Requester) (tag : Nat) (g : Got) : State :=
  { g.s with hg.resp := g.s.hg.resp ++ [{ who := r, tag := tag, status := g.st, data := g.data }],
             hg.wait := s.hg.wait.erase (r, tag) }

/-- The gate takes a request of the fabric at this edge (R211, R213, R214). -/
def State.gateReady (s : State) (m : Nat) : Bool :=
  let x := s.mea m
  x.gate.isOpen && x.gate.ready && !x.masked && s.netRuns m x.live.pers.gateClk

/-- The requester may issue now: a gate when it is ready, nothing waits in it behind an ordered request (R210), and the tag of a
request that is not posted is free, 64 at most in use (R211). -/
def State.mayIssue (s : State) (who : Source) (tag : Option Nat) : Bool :=
  match who with
  | .gate m =>
    let g := (s.mea m).gate
    s.gateReady m && g.outq.isEmpty && (match tag with | some t => !g.tags.contains t && decide (g.tags.length < 64) | none => true)
  | _ => true

/-- A gate's request is outstanding under its tag. -/
def State.issued (s : State) (who : Source) (tag : Nat) (write : Bool) : State :=
  match who with
  | .gate m => s.updMea m fun x => { x with
      gate.tags := tag :: x.gate.tags, gate.wtags := if write then tag :: x.gate.wtags else x.gate.wtags }
  | _ => s

/-- A transfer of 8 to 4,096 bytes in whole 8-byte units (R205). -/
def lenOk (n : Nat) : Bool := n % 8 = 0 && rng n 8 4096

/-- The pseudo-channels are held in HOLD (R238): an access to HBM gets no response. -/
def State.heldInHold (s : State) (handle : Nat) : Bool :=
  decide (s.pwr.mode = .hold) && (match s.buf handle with | some b => b.place.isHbm | none => false)

/-- The buffer's lines exist, and those of its migration (R229). -/
def State.linesExist (s : State) (handle : Nat) : Bool :=
  (match s.buf handle with | some b => b.place.exists_ | none => true) &&
    (match s.migOf handle with | some m => m.dest.exists_ | none => true)

/-! ## Transactions (R205, R206) -/

/-- An access waits for its pseudo-channels until the return to RUN (R238). -/
def State.holdReq (s : State) (a : Asker) (tag h off : Nat) (what : HeldKind) : State :=
  { s with hg.held := s.hg.held ++ [{ who := { a with at_ := some s.tl.up }, tag := tag, handle := h, off := off, what := what }] }

/-- BREAD: served, or held while HBM is stopped. -/
def State.bread (s : State) (a : Asker) (tag h off n : Nat) : State :=
  let r := a.requester
  if ¬ lenOk n then s.hgAnswer r tag { s := s, st := hsRange }
  else if s.heldInHold h then { s.holdReq a tag h (off / 8 * 8) (.bread n) with hg.wait := s.hg.wait ++ [(r, tag)] }
  else s.hgAnswer r tag (s.bufRead a h (off / 8 * 8) n)

def State.bwrite (s : State) (a : Asker) (tag h off : Nat) (data : List Byte) (be : List Bool) : State :=
  let r := a.requester
  if ¬ lenOk data.length ∨ be.length ≠ data.length then s.hgAnswer r tag { s := s, st := hsRange }
  else if s.heldInHold h then { s.holdReq a tag h (off / 8 * 8) (.bwrite data be) with hg.wait := s.hg.wait ++ [(r, tag)] }
  else s.hgAnswer r tag { s.bufWrite a h (off / 8 * 8) data be with data := [] }

/-! Fabric targets (R211-R214). -/

/-- Why a meadow's gate does not take a request: a world, or a gate that is closed or without a clock. -/
def State.targetRefuses (s : State) (m : Nat) (world : Bool) : Option (BitVec 3) :=
  let x := s.mea m
  if x.world ∧ ¬ world then some hsDenied else if ¬ x.gate.isOpen ∨ x.live.pers.gateClk = 0 then some hsError else none

/-- The answer to a request of `n` bytes that a gate does not take. -/
def State.targetFail (s : State) (m : Nat) (st : BitVec 3) (who : Requester) (tag n : Nat) (write : Bool) : State :=
  let s := if st = hsDenied then s.deny who.kind who.index 0 m else s
  s.hgAnswer who tag { s := s, st := st, data := if st = hsDenied ∧ ¬ write then List.replicate n 0 else [] }

/-- A request reaches a gate that takes it: presented, or held by masking or in HOLD (R214, R429). -/
def State.present (s : State) (m : Nat) (q : GateReq) : State :=
  if ¬ (s.mea m).gate.ready then s.updMea m fun x => { x with gate.held := x.gate.held ++ [q] }
  else (s.updMea m fun x => { x with gate.target := x.gate.target ++ [q] }).emit (.target m q.write q.off q.world q.peek)

/-- A request of one part. -/
def State.toTarget (s : State) (m : Nat) (q : GateReq) : State :=
  match s.targetRefuses m q.world with
  | some st => s.targetFail m st q.who q.tag q.data.length q.write
  | none => ({ s with hg.wait := s.hg.wait ++ [(q.who, q.tag)] }).present m q

/-- A transaction to a fabric target, split into parts of at most 32 bytes, which wait for one response together. What lies
beyond the window ends with RANGE (R206). -/
def State.toTargets (s : State) (a : Asker) (tag m off : Nat) (write peek : Bool) (data : List Byte) (be : List Bool) : State :=
  match s.targetRefuses m a.world with
  | some st => s.targetFail m st a.requester tag data.length write
  | none =>
    let n := min data.length (directWin 3 - off)
    let k := (n + 31) / 32
    let s := { s with hg.wait := s.hg.wait ++ [(a.requester, tag)] }
    let s := if n = data.length then s else s.updMea m fun x => { x with gate.parts := x.gate.parts ++ [(a.requester, tag, hsRange, [])] }
    each (List.range k) (fun i s => s.present m {
      who := a.requester, tag := tag, write := write, off := off + 32 * i, data := ((data.take n).drop (32 * i)).take 32
      be := ((be.take n).drop (32 * i)).take 32, world := a.world, peek := peek, last := i + 1 = k }) s

/-- DREAD; what is asked beyond a window ends with RANGE. -/
def State.dread (s : State) (a : Asker) (tag addr n : Nat) (peek : Bool) : State :=
  let r := a.requester
  match (if lenOk n then directAddr (addr / 8 * 8) else none) with
  | none => s.hgAnswer r tag { s := s, st := hsRange }
  | some (k, i, o) =>
    if k = 3 ∧ o < directWin 3 then s.toTargets a tag i o false peek (List.replicate n 0) (List.replicate n true)
    else if k = 3 then s.hgAnswer r tag { s := s, st := hsRange }
    else s.hgAnswer r tag (s.directRead a k i o n)

def State.dwrite (s : State) (a : Asker) (tag addr : Nat) (data : List Byte) (be : List Bool) : State :=
  let r := a.requester
  match (if lenOk data.length ∧ be.length = data.length then directAddr (addr / 8 * 8) else none) with
  | none => s.hgAnswer r tag { s := s, st := hsRange }
  | some (k, i, o) =>
    if k = 3 ∧ o < directWin 3 then s.toTargets a tag i o true false data be
    else if k = 3 then s.hgAnswer r tag { s := s, st := hsRange }
    else s.hgAnswer r tag { s.directWrite a k i o data be with data := [] }

/-! Queues and tokens. -/

/-- The producer source code of a requester; 15 names a source that can hold no slot. -/
def pushSrc : Source → BitVec 32
  | .flow c => srcCode 1 (c / 1024)
  | .sched h => srcCode 2 h
  | .gate m => srcCode 3 m
  | .warden => srcCode 4 0
  | .queue q => srcCode 6 q
  | _ => srcCode 15 0

/-- The requester of a posted word: a scheduler pushes for an entry and the warden for one of its roles, in that world (R129). -/
def State.pusher (s : State) (who : Source) (role : Bool) : Asker :=
  match who with
  | .sched _ | .warden => { s.asker who with world := role }
  | _ => s.asker who

/-- A push; `role` is the world of the entry or role it is made for. -/
def State.qpush (s : State) (who : Source) (role : Bool) (q : Nat) (prio : BitVec 2) (data : BitVec 64) : State :=
  let a := s.pusher who role
  let (t, r) := s.hgPush (pushSrc who) a.world q prio data
  if r = .world then t.deny a.kind a.index 2 q else t

/-- A token arrives over the hedgerow: taken, dropped, or waiting at the entry's heath, outside the commit buffer, whose places
are the tasks' own (R192), until the slot can take it (log 19). -/
def State.tokenArrives (s : State) (a : Asker) (n slot : Nat) (data : BitVec 64) : State :=
  let w : Commit := { item := .token n slot data, world := a.world, rsv := false, sender := some a.requester }
  let hh := entHeath n
  let s := s.updSch hh fun c => { c with arrivals := c.arrivals ++ [w] }
  let i := (s.sch hh).waiting.length - 1
  if (s.sch hh).foremost i w then s.deliverWord hh i w else s

/-- A queue served to hedgerow consumers (R505). -/
def State.qServes (s : State) (q : Nat) : Bool := s.qEnabled q && decide ((s.qCfg q).cons = 2)

/-- QPEEK: the head word and its tag; ERROR with them when its row holds an uncorrectable error (R123, R207). -/
def State.qpeek (s : State) (a : Asker) (q : Nat) : Got :=
  if ¬ (s.mea (q / 512)).gate.isOpen then { s := s, st := hsError }
  else if ¬ s.qServes q then { s := s, st := hsRange }
  else if ¬ reaches a.world (s.qWorld q) then (Got.denied s 2 q 16).report a
  else if s.qCol q ≠ .on then { s := s, st := hsError }
  else
    let x := s.queue q
    { s := s, st := if x.head.any (·.err) then hsError else hsOk
      data := leBytes 8 (match x.head with | some w => w.data.toNat | none => 0) ++ leBytes 8 x.headTag }

/-- QPOP with a sequence number (R127, R505). A word with an uncorrectable error is delivered with ERROR (R123). -/
def State.qpop (s : State) (a : Asker) (q : Nat) (seq : BitVec 16) : Got :=
  if ¬ (s.mea (q / 512)).gate.isOpen then { s := s, st := hsError }
  else if ¬ s.qServes q then { s := s, st := hsRange }
  else if ¬ reaches a.world (s.qWorld q) then (Got.denied s 2 q 0).report a
  else if s.qCol q ≠ .on then { s := s, st := hsError }
  else
    let x := s.queue q
    if x.head.isSome ∧ seq = x.seq then { s := s.deliver q, st := if x.head.any (·.err) then hsError else hsOk }
    else { s := s.setQueue q { x with popIgn := satInc x.popIgn }, st := hsError }

/-! ## The rows -/

def execHedgerowBread (who : Source) (tag h off n : Nat) (s : State) : Res :=
  if ¬ s.alive ∨ ¬ s.mayIssue who (some tag) then .next s
  else if ¬ s.linesExist h then .fault .noSuchLine
  else .next ((s.issued who tag false).bread (s.asker who) tag h off n)

def execHedgerowBwrite (who : Source) (tag h off : Nat) (data : List Byte) (be : List Bool) (s : State) : Res :=
  if ¬ s.alive ∨ ¬ s.mayIssue who (some tag) then .next s
  else if ¬ s.linesExist h then .fault .noSuchLine
  else .next ((s.issued who tag true).bwrite (s.asker who) tag h off data be)

def execHedgerowDread (who : Source) (tag : Nat) (addr : BitVec 56) (n : Nat) (s : State) : Res :=
  if ¬ s.alive ∨ ¬ s.mayIssue who (some tag) then .next s
  else .next ((s.issued who tag false).dread (s.asker who) tag addr.toNat n (who = .debug))

def execHedgerowDwrite (who : Source) (tag : Nat) (addr : BitVec 56) (data : List Byte) (be : List Bool) (s : State) : Res :=
  if ¬ s.alive ∨ ¬ s.mayIssue who (some tag) then .next s
  else .next ((s.issued who tag true).dwrite (s.asker who) tag addr.toNat data be)

def execHedgerowQpush (who : Poster) (q : QueueId) (prio : BitVec 2) (data : BitVec 64) (s : State) : Res :=
  if ¬ s.alive ∨ ¬ s.mayIssue who.src none then .next s else .next (s.qpush who.src who.role q prio data)

def execHedgerowToken (who : Poster) (n : EntryId) (slot : Fin 4) (data : BitVec 64) (s : State) : Res :=
  if ¬ s.alive ∨ ¬ s.mayIssue who.src none then .next s
  else .next (s.tokenArrives (s.pusher who.src who.role) n slot data)

def execHedgerowQpeek (who : Source) (tag : Nat) (q : QueueId) (s : State) : Res :=
  if ¬ s.alive ∨ ¬ s.mayIssue who (some tag) then .next s
  else .next ((s.issued who tag false).hgAnswer (s.asker who).requester tag ((s.issued who tag false).qpeek (s.asker who) q))

def execHedgerowQpop (who : Source) (tag : Nat) (q : QueueId) (seq : BitVec 16) (s : State) : Res :=
  if ¬ s.alive ∨ ¬ s.mayIssue who (some tag) then .next s
  else .next ((s.issued who tag false).hgAnswer (s.asker who).requester tag ((s.issued who tag false).qpop (s.asker who) q seq))

/-- The DBG_ACCESS operation in progress ends with a status and its read data (R457). -/
def State.dbgEnd (s : State) (st : BitVec 3) (data : Nat) : State :=
  match s.dbg.op with
  | some a => { s with dbg := { s.dbg with op := none, addr := a, status := st.setWidth 4, data := BitVec.ofNat 64 data } }
  | none => s

/-- A request of the gate leaves its interface, in the world that the meadow had at its edge of issue (R212). -/
def State.gateSend (s : State) (m : Nat) (o : OutReq) : State :=
  let q := o.req
  let t := q.type.toNat
  let tag := q.tag.toNat
  let a : Asker := { kind := 3, index := m, world := o.world }
  let addr := q.addr.toNat
  let n := 8 * (q.len.toNat + 1)
  let h := fld addr 0 20
  let off := fld addr 20 36
  let qn := fld addr 0 17
  let word := BitVec.ofNat 64 (leNat (q.data.take 8))
  let s := if t = 2 ∨ t = 4 then s.updMea m fun x => { x with gate.wtags := tag :: x.gate.wtags } else s
  let range := s.hgAnswer a.requester tag { s := s, st := hsRange }
  match t with
  | 1 => s.bread a tag h off n
  | 2 => s.bwrite a tag h off (q.data.take n) (q.be.take n)
  | 3 => s.dread a tag addr n false
  | 4 => s.dwrite a tag addr (q.data.take n) (q.be.take n)
  | 5 =>
    if qn < 98304 then
      let (s, r) := s.hgPush (srcCode 3 m) a.world qn q.prio word
      if r = .world then s.deny a.kind a.index 2 qn else s
    else s
  | 6 => s.tokenArrives a (fld addr 0 13) (fld addr 13 2) word
  | 7 => if qn < 98304 then s.hgAnswer a.requester tag (s.qpeek a qn) else range
  | 8 => if qn < 98304 then s.hgAnswer a.requester tag (s.qpop a qn (word.setWidth 16)) else range
  | _ => range

/-- The requests that wait in a gate's interface leave in order, up to one with ORD = 1 that must wait for an earlier write. -/
def State.drainGate (s : State) (m : Nat) : Nat → State
  | 0 => s
  | n + 1 =>
    match (s.mea m).gate.outq with
    | [] => s
    | q :: rest =>
      if q.req.ord ∧ (s.mea m).gate.wtags ≠ [] then s
      else ((s.updMea m fun x => { x with gate.outq := rest }).gateSend m q).drainGate m n

/-- HEDGEROW_RESPONSE: the response reaches its requester; at a gate, whose clock must run, it shows on hg_rsp, its tag is free again,
and what waited for its acknowledgement leaves (R210). A TIMEOUT acknowledges no write: what is ordered after it goes on waiting
(R208, R210; log 19). -/
def execHedgerowResponse (who : Source) (tag : Nat) (s : State) : Res :=
  let r := (s.asker who).requester
  match s.hg.resp.find? fun p => p.who = r && p.tag = tag with
  | some p =>
    let t := { s with hg.resp := s.hg.resp.erase p }
    match who with
    | .gate m =>
      if ¬ s.netRuns m (s.mea m).live.pers.gateClk then .next s
      else
        let t := t.updMea m fun x => { x with
          gate.rsp := some (tag, p.status, p.data), gate.tags := x.gate.tags.erase tag
          gate.wtags := if p.status = hsTimeout then x.gate.wtags else x.gate.wtags.erase tag }
        .next (t.drainGate m (t.mea m).gate.outq.length)
    | .debug => .next (t.dbgEnd p.status (leNat p.data))
    | _ => .next t
  | none => .next s

/-- POOL_HOST_WRITE_FAILED: handle, offset, status (R225, R348). -/
def State.writeFailed (s : State) (h hd off : Nat) (st : BitVec 3) : State := s.event [h] 0x0601 [hd, off, st.toNat]

/-- A BAR2 access that HOLD holds ends with TIMEOUT: a write is reported (R225), and a read completes with free data. -/
def State.apTimeout (s : State) (q : HeldReq) : State :=
  let s := { s with hg.held := s.hg.held.replace q { q with late := true } }
  match q.what with
  | .bar2Write _ _ => s.writeFailed q.who.index q.handle q.off hsTimeout
  | .bar2Read n =>
    let (d, s) := s.drawBytes (n / 8 + 1)
    s.emit (.read q.who.index (d.take n))
  | _ => s

/-- What still stands for a transaction that has ended with TIMEOUT, at the gates and at the pseudo-channels, answers nobody (R208):
the tag may name another transaction from now on. -/
def State.forget (s : State) (r : Requester) (tag : Nat) : State :=
  let mark := fun q : GateReq => if q.who = r ∧ q.tag = tag then { q with late := true } else q
  let s := each s.fab.keys (fun m s => s.updMea m fun x => { x with
    gate.target := x.gate.target.map mark, gate.held := x.gate.held.map mark
    gate.parts := x.gate.parts.filter fun p => !(p.1 = r && p.2.1 = tag) }) s
  { s with hg.held := s.hg.held.map fun q =>
      match q.what with
      | .bread _ | .bwrite _ _ => if q.who.requester = r ∧ q.tag = tag then { q with late := true } else q
      | _ => q }

/-- A request that has not left its gate's interface when it ends with TIMEOUT leaves no more; a write among them is one that no later
request finds acknowledged. DESIGN CHOICE (log 19): R208 lets such a write take effect or not. -/
def State.recall (s : State) (who : Source) (tag : Nat) : Option State :=
  match who with
  | .gate m =>
    let mine := fun o : OutReq => decide (o.req.type.toNat ≠ 5 ∧ o.req.type.toNat ≠ 6 ∧ o.req.tag.toNat = tag)
    (((s.mea m).gate.outq).find? mine).map fun o => s.updMea m fun x => { x with
      gate.outq := x.gate.outq.erase o
      gate.wtags := if o.req.type.toNat = 2 ∨ o.req.type.toNat = 4 then tag :: x.gate.wtags else x.gate.wtags }
  | _ => none

/-- HEDGEROW_TIMEOUT: no response has arrived 8 µs after issue; one that arrives later is discarded (R208). For a host without a
request under the tag it is the oldest of its aperture accesses that HOLD holds, which has no tag. -/
def execHedgerowTimeout (who : Source) (tag : Nat) (s : State) : Res :=
  let r := (s.asker who).requester
  let late := s.hg.resp.any fun p => p.who = r && p.tag = tag
  let ended := fun s : State => { s with
    hg.wait := s.hg.wait.erase (r, tag)
    hg.resp := (s.hg.resp.filter fun p => !(p.who = r && p.tag = tag)) ++ [{ who := r, tag := tag, status := hsTimeout, data := [] }] }
  if late ∨ (r, tag) ∈ s.hg.wait then .next (ended (s.forget r tag))
  else if let some t := s.recall who tag then .next (ended t)
  else
    let ap := fun q : HeldReq => !q.late && q.who.requester = r && (match q.what with | .bar2Read _ | .bar2Write _ _ => true | _ => false)
    match s.hg.held.find? ap with
    | some q => .next (s.apTimeout q)
    | none => .next s

/-- HEDGEROW_LINK_RETRY: a retry of a flit on a die-to-die link succeeds, or fails and is counted; 16 failures in a row stand (R203,
R204). -/
def execHedgerowLinkRetry (edge : Fin 3) (n : Fin 16) (ok : Bool) (s : State) : Res :=
  let k := 16 * edge.val + n.val
  .next { s with hg.link := s.hg.link.upd {} k fun l =>
    if l.retired ∨ 16 ≤ l.retries then l else if ok then { l with retries := 0 } else { l with retries := l.retries + 1 } }

/-! ## The gate (R211-R214) -/

/-- GATE_REQUEST_ISSUE: a request is issued with its tag, when that is free (R211). One with ORD = 1 waits in the interface until
every earlier write of the gate has been acknowledged, and later ones wait behind it (R210). -/
def execGateRequestIssue (m : MeadowId) (q : GateIssue) (s : State) : Res :=
  let x := s.mea m
  let t := q.type.toNat
  let posted := t = 5 || t = 6
  let tag := q.tag.toNat
  if ¬ s.gateReady m ∨ (¬ posted ∧ (tag ∈ x.gate.tags ∨ 64 ≤ x.gate.tags.length)) then .next s
  else if (t = 1 ∨ t = 2) ∧ ¬ s.linesExist (fld q.addr.toNat 0 20) then .fault .noSuchLine
  else
    let s := if posted then s else s.updMea m fun x => { x with gate.tags := tag :: x.gate.tags }
    let s := s.updMea m fun x => { x with gate.outq := x.gate.outq ++ [{ req := q, world := x.world }] }
    .next (s.drainGate m (s.mea m).gate.outq.length)

/-- GATE_TARGET_REQUEST: an inbound fabric-target request of at most 32 bytes reaches the gate. -/
def execGateTargetRequest (m : MeadowId) (who : Source) (peek write : Bool) (off : BitVec 18) (data : List Byte) (be : List Bool)
    (tag : Nat) (s : State) : Res :=
  if ¬ s.alive ∨ 32 < data.length then .next s
  else
    let a := s.asker who
    .next (s.toTarget m { who := a.requester, tag := tag, write := write, off := off.toNat, data := data, be := be
                          world := a.world, peek := peek, last := true })

/-- GATE_TARGET_RESPONSE: the fabric answers its oldest target request; the last part ends the transaction. -/
def execGateTargetResponse (m : MeadowId) (status : BitVec 3) (data : List Byte) (s : State) : Res :=
  let x := s.mea m
  match x.gate.target with
  | q :: rest =>
    if ¬ x.gate.isOpen ∨ ¬ s.netRuns m x.live.pers.gateClk then .next s
    else
      let mine := fun p : Requester × Nat × BitVec 3 × List Byte => decide (p.1 = q.who) && decide (p.2.1 = q.tag)
      let old := (x.gate.parts.find? mine).map fun p => (p.2.2.1, p.2.2.2)
      let st := match old with | some (o, _) => if o = hsOk then status else o | none => status
      let d := (match old with | some (_, d) => d | none => []) ++ (if q.write then [] else data)
      let parts := x.gate.parts.filter fun p => !mine p
      -- a response after the requester's TIMEOUT is discarded (R208)
      if q.late then .next (s.setMea m { x with gate.target := rest })
      else if q.last then
        let s := s.setMea m { x with gate.target := rest, gate.parts := parts }
        if (q.who, q.tag) ∈ s.hg.wait then
          let s := { s with hg.wait := s.hg.wait.filter fun w => w ≠ (q.who, q.tag) }
          .next (s.hgAnswer q.who q.tag { s := s, st := st, data := d })
        else .next s
      else .next (s.setMea m { x with gate.target := rest, gate.parts := parts ++ [(q.who, q.tag, st, d)] })
  | [] => .next s

/-- GATE_HELD_REQUEST_TIMEOUT: the oldest request held by masking has waited 2 µs (R214). -/
def execGateHeldRequestTimeout (m : MeadowId) (s : State) : Res :=
  let x := s.mea m
  match x.gate.held, x.masked with
  | q :: rest, true =>
    let s := s.setMea m { x with gate.held := rest }
    -- one response for all the parts of a transaction
    if ¬ q.late ∧ (q.who, q.tag) ∈ s.hg.wait then
      let s := ({ s with hg.wait := s.hg.wait.filter fun w => w ≠ (q.who, q.tag) } : State).forget q.who q.tag
      .next (s.hgAnswer q.who q.tag { s := s, st := hsTimeout })
    else .next s
  | _, _ => .next s

end Sys2Proof.Machine
end

