-- ==== Sys2Proof/Machine/Cues.lean ====
section
/-! DEFINITION. Cue slots (spec/02_timeline_and_cues.md): arming, disarming, launching, and the actions of cues whose targets
need no more than a queue, an entry, a gate or an event ring. -/

namespace Sys2Proof.Machine

/-! ## Fields and launch times (R38, R40) -/

/-- The 256-bit entry that ARG0 to ARG3 of CUE_ARM carry. -/
def Cmd.cueEntry (c : Cmd) : BitVec 256 :=
  BitVec.ofNat 256 (pack [(c.arg 0, 0), (c.arg 1, 64), (c.arg 2, 128), (c.arg 3, 192)])

def Cue.repeats (c : Cue) : Nat := c.f 136 16
def Cue.step (c : Cue) : Nat := c.f 120 16
def Cue.onGrid (c : Cue) : Bool := c.entry.getLsbD 253
/-- The cue repeats until it is disarmed. -/
def Cue.endless (c : Cue) : Bool := c.onGrid && c.repeats = 0xFFFF

/-- The grid and line number of a grid cue. -/
def State.cueGrid (s : State) (c : Cue) : Option (Grid × Nat) :=
  if c.onGrid then (s.tl.grids.get none (c.f 116 4)).map fun g => (g, g.line (c.f 58 14)) else none

/-- The stated launch time of an absolute cue. -/
def Cue.absTime (c : Cue) : Nat := c.f 72 48 * secU + c.f 42 30 * nsU + c.f 26 16 * 2 ^ 16

/-- The first frame of a grid whose line is reached at or after a time. -/
def Grid.frameFrom (g : Grid) (t l : Nat) : Nat :=
  let est := (((t : Int) - g.lineTime 0 l).toNat * g.num) / (secU * g.den)
  (([est - 1, est, est + 1, est + 2].find? fun n => decide ((t : Int) ≤ g.lineTime n l)).getD (est + 3))

/-! ## The launches of a cue, and conflicts (R43) -/

/-- The launches still to come of a cue: the first, and those that repeat it on a grid. -/
structure Train where
  first : Nat
  frame : Nat := 0
  step : Nat := 0
  left : Nat := 0
  endless : Bool := false
  grid : Option (Grid × Nat) := none

def State.train (s : State) (c : Cue) : Train :=
  { first := c.launch, frame := c.frame, step := c.step, left := c.left, endless := c.endless, grid := s.cueGrid c }

/-- Launch `j` of a train. -/
def Train.time (x : Train) (j : Nat) : Nat :=
  match x.grid with
  | some (g, l) => if j = 0 then x.first else (g.lineTime (x.frame + j * x.step) l).toNat
  | none => x.first

/-- A launch of the train lies less than `lim` from the time `t`. Repeats lie at least one frame period apart, so that only
those about one place of the train can. -/
def Train.near (x : Train) (t lim : Nat) : Bool :=
  let est := match x.grid with
    | some (g, _) => if x.step = 0 then 0 else ((t - x.first) * g.num) / (secU * g.den * x.step)
    | none => 0
  [est - 1, est, est + 1, est + 2].any fun j =>
    (x.endless || decide (j ≤ x.left)) && decide (x.time j < t + lim ∧ t < x.time j + lim)

/-- How many launches of `x` decide whether it meets `y`: all of a finite train; of two endless ones, those of one common
period of the two after both have begun. -/
def Train.span (x y : Train) : Nat :=
  if ¬ x.endless then x.left + 1
  else
    match x.grid, y.grid with
    | some (g, _), some (k, _) =>
      let p := g.den * x.step
      g.num * (Nat.lcm p (k.den * y.step) / p) + (y.first - x.first) * g.num / (secU * p) + 2
    | _, _ => x.left + 1

/-- Two trains have launches less than `lim` apart. -/
def Train.meets (x y : Train) (lim : Nat) : Bool :=
  let go := fun (a b : Train) => (List.range (a.span b)).any fun j => b.near (a.time j) lim
  if x.endless ∧ ¬ y.endless then go y x
  else if ¬ x.endless ∧ ¬ y.endless ∧ y.left < x.left then go y x
  else go x y

/-- The distance below which two cues conflict, when their targets let them conflict at all (R43). -/
def Cue.clash (a b : Cue) : Option Nat :=
  let k := a.action / 256
  if k = 1 ∨ k = 6 ∨ b.action / 256 ≠ k ∨ a.target ≠ b.target then none
  else if k = 3 ∧ (a.action = 0x0301 ∨ b.action = 0x0301) then some (1000 * nsU + 1)
  else if k = 5 ∧ a.arg % 4 ≠ b.arg % 4 then none
  else if k = 4 ∧ a.arg % 8 ≠ b.arg % 8 then none
  else some (100 * nsU)

/-- The cue conflicts with an armed one. -/
def State.cueConflict (s : State) (c : Cue) : Bool :=
  s.tl.cues.ents.any fun e =>
    e.2.armed && (match c.clash e.2 with | some lim => (s.train c).meets (s.train e.2) lim | none => false)

/-! ## CUE_ARM (R39) -/

/-- The heath that holds a cue's target. -/
def Cue.heath (c : Cue) : Nat :=
  match c.action / 256 with
  | 2 => 1 + c.target / 2048
  | 3 => c.target / 48
  | 4 => c.target / 64 / 48
  | 5 => c.target / 2048
  | _ => 0

/-- Whether a context sends (DIR of R355). -/
def Ctx.egress (x : Ctx) : Bool := (x.prm.getD 0 0).getLsbD 63

/-- Byte offsets of ARG, TARGET and ACTION in the command slot. -/
def offArg : BitVec 16 := argOff 2 24
def offTarget : BitVec 16 := argOff 3 24
def offAction : BitVec 16 := argOff 3 40

/-- The first fault of an action, its argument or its target (check 1). A matching-store entry that is FREE is a target
all the same: a token for it is refused at launch under R186. DEDUCED (log 21). -/
def State.actionFault (s : State) (c : Cue) : Option (BitVec 16) :=
  let exists_ := match c.action with
    | 0x0201 => decide ((s.ctx c.target).st ≠ .free) && (s.ctx c.target).egress
    | 0x0202 | 0x0203 => decide ((s.ctx c.target).st ≠ .free)
    | 0x0302 => (s.mea c.target).live.pers.gateClk ≠ 0
    | 0x0401 => s.qEnabled (8 * c.target + c.arg)
    | 0x0601 => s.hosts.contains c.target
    | _ => true
  match cueSets c.action c.target c.arg with
  | none => some offAction
  | some (targetOk, argOk) => if ¬ argOk then some offArg else if ¬ (targetOk && exists_) then some offTarget else none

/-- The first fault of a grid cue's GRID or LINE: the grid must be defined and the line in it. -/
def State.gridFault (s : State) (c : Cue) : Option (BitVec 16) :=
  if ¬ c.onGrid then none
  else
    match s.tl.grids.get none (c.f 116 4) with
    | none => some (argOff 1 52)
    | some g =>
      let l := c.f 58 14
      if l = 0x3FFF then (if g.switch2 = 0 then some (argOff 0 58) else none)
      else if g.lines < l then some (argOff 0 58) else none

/-- The resource of R442 that a cue aims at, and its world. DESIGN CHOICE (log 21): the host that a HOST_EVENT names is no secure
target, whatever its world, since R442 has no resource kind for a host: such a cue is never denied. -/
def State.cueAim (s : State) (c : Cue) : Option (Nat × Nat × Bool) :=
  match c.action / 256 with
  | 2 => some (1, c.target, (s.ctx c.target).world)
  | 3 => some (0, c.target, (s.mea c.target).world)
  | 4 => some (2, 8 * c.target + c.arg % 8, s.que.world.get false c.target)
  | 5 => some (7, c.target, (s.ent c.target).world)
  | _ => none

/-- A cue of world `w` may not act on its target now. -/
def State.cueDenied (s : State) (c : Cue) (w : Bool) : Option (Nat × Nat) :=
  match s.cueAim c with
  | some (k, i, r) => if reaches w r then none else some (k, i)
  | none => none

/-- The frame and the time of a new cue's first launch; all ones in FRAME is the first frame 2 µs ahead or more. -/
def State.firstLaunch (s : State) (c : Cue) : Nat × Nat :=
  match s.cueGrid c with
  | some (g, l) =>
    let n := if c.f 72 44 = 2 ^ 44 - 1 then g.frameFrom (s.heathNow c.heath + 2000 * nsU) l else c.f 72 44
    (n, (g.lineTime n l).toNat)
  | none => (0, c.absTime)

/-- The lowest free slot of a heath (log 21). -/
def State.freeSlot (s : State) (hh : Nat) : Option Nat :=
  ((List.range 4096).map (4096 * hh + ·)).find? fun k => !(s.cue k).armed

/-- The checks of R39 in their order, then the arming. -/
def cueArm (s : State) (h : Nat) (c : Cmd) : Ans :=
  let x : Cue := { entry := c.cueEntry }
  match s.actionFault x, s.gridFault x with
  | some o, _ => { s := s, status := stBadArg, cause := match s.gridFault x with | some g => if g.toNat < o.toNat then g else o | none => o }
  | none, some o => { s := s, status := stBadArg, cause := o }
  | none, none =>
    let (n, t) := s.firstLaunch x
    let x := { x with
      armed := true, world := c.world, host := h, frame := n, launch := t, left := if x.onGrid then x.repeats else 0 }
    if (s.cueDenied x c.world).isSome then .denied s h c
    else if s.cueConflict x then { s := s, status := stBadArg, cause := offTarget }
    else if x.action = 0x0301 ∧ (s.mea x.target).ucState ≠ .verified ∧ (s.mea x.target).ucState ≠ .previous then .notReady s
    else
      match s.freeSlot x.heath with
      | none => .noRes s
      | some k =>
        if t < s.heathNow x.heath + 2000 * nsU then .late s
        else
          let s := s.setCue k { x with gen := (s.cue k).gen, launched := (s.cue k).launched }
          { s := s, res := [s.cueHandle k] }

def execCueArm (h : HostId) (s : State) : Res := runCmd h 0x0406 anyCmd cueArm s

/-! ## CUE_DISARM, CUE_QUERY (R38, R41) -/

/-- The cue of a slot is due: its heath's timeline has reached its launch time. -/
def State.cueDue (s : State) (k : Nat) : Bool := (s.cue k).armed && decide ((s.cue k).launch ≤ s.heathNow (k / 4096))

/-- A handle of the current generation names the armed cue. One whose cue made its last launch, with no later use of the
slot, gives LATE; any other generation is stale (log 21). -/
def cueDisarm (s : State) (h : Nat) (c : Cmd) : Ans :=
  let k := c.f 0 0 14
  let g := BitVec.ofNat 8 (c.f 0 24 8)
  let x := s.cue k
  if x.armed ∧ g = x.gen then
    if h ≠ x.host ∧ h ≠ s.pwr.owner then .denied s h c
    else if s.cueDue k ∨ x.ran = some s.tl.up then .late s
    else { s := s.freeCue k }
  else if x.launched ∧ g + 1 = x.gen then .late s
  else .bad s 0 24

def execCueDisarm (h : HostId) (s : State) : Res := runCmd h 0x0407 anyCmd cueDisarm s

/-- The entry as CUE_QUERY returns it: zero for a free slot. -/
def Cue.word (c : Cue) : Nat :=
  if c.armed then c.entry.toNat + pack [(1, 255), (bit c.world, 252), (c.host, 249)] else 0

/-- CUE_QUERY: a handle of another generation names no cue and reads as a free slot (log 21). -/
def cueQuery (s : State) (h : Nat) (c : Cmd) : Ans :=
  let x := s.cue (c.f 0 0 14)
  let w := if BitVec.ofNat 8 (c.f 0 24 8) = x.gen then x.word else 0
  if w ≠ 0 ∧ ¬ reaches c.world x.world then .denied s h c
  else { s := s, res := (List.range 4).map fun i => fld w (64 * i) 64 }

def execCueQuery (h : HostId) (s : State) : Res := runCmd h 0x0408 anyCmd cueQuery s

/-! ## Launching (R40, R41, R44, R47) -/

/-- After a launch: the next repeat, or the slot is free. -/
def State.advanceCue (s : State) (k : Nat) : State :=
  let x := s.cue k
  match s.cueGrid x with
  | some (g, l) =>
    if x.endless ∨ x.left ≠ 0 then
      let n := x.frame + x.step
      s.setCue k { x with frame := n, launch := (g.lineTime n l).toNat, left := if x.endless then x.left else x.left - 1,
                            ran := some s.tl.up }
    else s.freeCue k true
  | none => s.freeCue k true

/-- CUE_DONE to the arming host; TIME is the launch time. -/
def State.cueDone (s : State) (host handle t : Nat) : State :=
  s.eventAt [host] 0x0406 (Config.eventDetail 0x0406 [handle]) t

/-- An event that carries the cue's user value and launch time. -/
def State.cueEvent (s : State) (host : Nat) (code : BitVec 16) (c : Cue) : State :=
  s.eventAt [host] code (Config.eventDetail code [c.arg]) c.launch

/-- The cue in slot `k` launches, when it is due and carries the action: it counts as executed, acts unless it is
non-secure and its target has become secure, and reports under NOTIFY (`done`: at launch). In HOLD only TL_MARK and
HOST_EVENT launch. -/
def State.launch (s : State) (k action : Nat) (done : Bool) (act : State → Cue → Nat → State) : State :=
  let c := s.cue k
  let handle := s.cueHandle k
  if s.cueDue k ∧ c.action = action ∧ s.alive ∧ (s.pwr.mode ≠ .hold ∨ action = 0x0101 ∨ action = 0x0601) then
    let s := s.advanceCue k
    match s.cueDenied c c.world with
    | some (r, i) =>
      let s := s.deny 8 k r i
      if c.notify then s.cueDone c.host handle c.launch else s
    | none =>
      let s := act s c handle
      if c.notify ∧ done = true then s.cueDone c.host handle c.launch else s
  else s

/-- CUE_TL_MARK. -/
def execCueTlMark (k : CueKey) (s : State) : Res :=
  .next (s.launch k 0x0101 true fun s c _ => s.cueEvent s.pwr.owner 0x0408 c)

/-- CUE_HOST_EVENT. -/
def execCueHostEvent (k : CueKey) (s : State) : Res :=
  .next (s.launch k 0x0601 true fun s c _ => s.cueEvent c.target 0x0409 c)

/-- A queue of an undefined or unpowered queue has no banks to swap (R114). -/
def State.bankSwap (s : State) (q : Nat) : State :=
  if s.qEnabled q ∧ s.qCol q ≠ .off then s.updQueue q Queue.swap else s

/-- CUE_QUEUE_BANK_SWAP. -/
def execCueQueueBankSwap (k : CueKey) (s : State) : Res :=
  .next (s.launch k 0x0401 true fun s c _ => s.bankSwap (8 * c.target + c.arg % 8))

/-- The operand slot and token word of a TASK_RELEASE. -/
def Cue.opSlot (c : Cue) : Nat := c.arg % 4
def Cue.token (c : Cue) : BitVec 64 := BitVec.ofNat 64 (fld c.arg 16 16)

/-- CUE_TASK_RELEASE. A refusal for world is that of R186, whose counts and event R44 does not take away. -/
def State.launchRelease (s : State) (k : Nat) : State :=
  let c := s.cue k
  let handle := s.cueHandle k
  if s.cueDue k ∧ c.action = 0x0501 ∧ s.alive ∧ s.pwr.mode ≠ .hold then
    let s := (s.advanceCue k).release k c.host c.world c.target c.opSlot c.token
    if c.notify then s.cueDone c.host handle c.launch else s
  else s

def execCueTaskRelease (k : CueKey) (s : State) : Res := .next (s.launchRelease k)

/-! ## Fabric events (R42, R507) -/

/-- The gate takes an event, or loses it when it holds sixteen. -/
def State.fabricEvent (s : State) (m host handle : Nat) (code : BitVec 16) : State :=
  let g := (s.mea m).gate
  if g.events.length < 16 then
    s.updMea m fun x => { x with gate := { g with events := g.events ++ [(code, host, BitVec.ofNat 32 handle)] } }
  else s.disarmedEvent host cFabricEventLost handle

/-- CUE_FABRIC_EVENT. -/
def execCueFabricEvent (k : CueKey) (s : State) : Res :=
  .next (s.launch k 0x0302 true fun s c handle => s.fabricEvent c.target c.host handle (BitVec.ofNat 16 c.arg))

/-- FABRIC_EVENT_DELIVERY: one cycle of a gate clock that runs: the oldest event on cue_valid, or none. -/
def execFabricEventDelivery (m : MeadowId) (s : State) : Res :=
  let g := (s.mea m).gate
  if s.netRuns m (s.mea m).live.pers.gateClk then
    .next (s.updMea m fun x => { x with gate := { g with events := g.events.drop 1, cue := g.events.head?.map (·.1) } })
  else .next s

/-! ## Operand writes by source (R185) -/

/-- The first waiting word that is this token. -/
def Sched.tokenAt (c : Sched) (n slot : Nat) (data : BitVec 64) : Option Nat :=
  let i := c.waiting.findIdx fun w => w.item = .token n slot data
  if i < c.waiting.length then some i else none

/-- Deliver a token that waits at heath `hh`'s scheduler, when no earlier word has its target. -/
def State.tokenWrite (s : State) (hh n slot : Nat) (data : BitVec 64) : State :=
  match (s.sch hh).tokenAt n slot data with
  | some i =>
    match (s.sch hh).waiting[i]? with
    | some w => if s.netUp ∧ (s.sch hh).foremost i w then s.deliverWord hh i w else s
    | none => s
  | none => s

/-- OPERAND_WRITE: the word of the named source reaches the slot; a word that the source does not hold changes nothing. -/
def execOperandWrite (src : OpSource) (n : EntryId) (slot : Fin 4) (data : BitVec 64) (s : State) : Res :=
  match src with
  | .forward q =>
    let x := s.queue q
    let aimed : Bool := match x.fwd with
      | some f => f.getLsbD 63 && decide (f.toNat % 2 ^ 17 = n.val ∧ fld f.toNat 17 2 = slot.val)
      | none => false
    if s.forwards q ∧ aimed ∧ x.head.map (·.data) = some data then .next (s.forward q) else .next s
  | .cue k =>
    let c := s.cue k
    if c.target = n.val ∧ c.opSlot = slot.val ∧ c.token = data then .next (s.launchRelease k) else .next s
  | .commit hh => if entHeath n = hh.val then .next (s.tokenWrite hh n slot data) else .next s
  | .hedgerow hh =>
    if entHeath n = hh.val ∧ ¬ (s.sch hh).arrivals.any fun w => w.item = .token n slot data then .next s
    else .next (s.tokenWrite hh n slot data)

end Sys2Proof.Machine
end

