-- ==== Sys2Proof/Machine/FlowOps.lean ====
section
/-! DEFINITION. Flow contexts (spec/13_swathe_stream_engines.md): their parameters, picture formats, packets, rates, pacing
and status words. -/

namespace Sys2Proof.Machine

/-! ## The parameter block (R269, R355) -/

/-- A field of the block: byte offset of its word, low bit, length. -/
def Ctx.p (x : Ctx) (off lo len : Nat) : Nat := fld (x.prm.getD (off / 8) 0).toNat lo len

def Ctx.kind (x : Ctx) : Nat := x.p 0 60 3
def Ctx.paths (x : Ctx) : Bool := x.p 0 59 1 = 1
def Ctx.portOf (x : Ctx) (b : Bool) : Nat := if b then x.p 0 51 3 else x.p 0 54 5
def Ctx.vlanOf (x : Ctx) (b : Bool) : Nat := if b then x.p 0 27 12 else x.p 0 39 12
def Ctx.gridNo (x : Ctx) : Nat := x.p 0 15 4
def Ctx.pacing (x : Ctx) : Nat := x.p 0 13 2
def Ctx.bufN (x : Ctx) : Nat := x.p 0 8 5
def Ctx.dstIp (x : Ctx) (b : Bool) : Nat := x.p (if b then 0x18 else 0x08) 32 32
def Ctx.dstUdp (x : Ctx) (b : Bool) : Nat := x.p (if b then 0x18 else 0x08) 16 16
def Ctx.srcUdp (x : Ctx) (b : Bool) : Nat := x.p (if b then 0x18 else 0x08) 0 16
def Ctx.srcIp (x : Ctx) (b : Bool) : Nat := x.p (if b then 0x20 else 0x10) 32 32
def Ctx.width (x : Ctx) : Nat := x.p 0x38 50 14
def Ctx.height (x : Ctx) : Nat := x.p 0x38 37 13
def Ctx.scan (x : Ctx) : Nat := x.p 0x38 35 2
def Ctx.sampling (x : Ctx) : Nat := x.p 0x38 32 3
def Ctx.depth (x : Ctx) : Nat := x.p 0x38 28 4
/-- LAYOUT WORD rather than PACKED. -/
def Ctx.wordLay (x : Ctx) : Bool := x.p 0x38 27 1 = 1
def Ctx.channels (x : Ctx) : Nat := x.p 0x40 57 7
def Ctx.descQ (x : Ctx) : Nat := x.p 0x48 47 17
def Ctx.descPrio (x : Ctx) : BitVec 2 := BitVec.ofNat 2 (x.p 0x48 45 2)
def Ctx.every (x : Ctx) : Nat := x.p 0x48 34 11
/-- MERGE_WINDOW in units of 1,024; zero with one path, where every lower number is lost as a higher one arrives
(DEDUCED from R273 and R274: log 22). -/
def Ctx.window (x : Ctx) : Nat := x.p 0x48 27 7
def Ctx.tro (x : Ctx) : Nat := x.p 0x58 34 30
def Ctx.payload (x : Ctx) : Nat := x.p 0x58 20 14
def Ctx.fillVal (x : Ctx) : Nat := x.p 0x60 48 16
def Ctx.ringHandle (x : Ctx) : Nat := x.p 0x60 24 20
def Ctx.ringSize (x : Ctx) : Nat := x.p 0x60 0 24
/-- DST_MAC of a path: derived from a multicast address where the block gives none (R269). -/
def Ctx.dstMac (x : Ctx) (b : Bool) : BitVec 48 :=
  let m := x.p (if b then 0x30 else 0x28) 16 48
  let ip := x.dstIp b
  if m ≠ 0 then BitVec.ofNat 48 m
  else if fld ip 28 4 = 14 then BitVec.ofNat 48 (0x01005E000000 + ip % 2 ^ 23)
  else Config.macOf (BitVec.ofNat 32 ip)
def Ctx.bufHandle (x : Ctx) (k : Nat) : Nat := x.p (0x68 + 8 * (k / 3)) (20 * (k % 3)) 20

/-- Frames with pictures: VIDEO and SDI. -/
def Ctx.isPicture (x : Ctx) : Bool := x.kind = 0 || x.kind = 5
/-- An enabled egress context whose first frame has not begun to form: it is still IDLE (R270, R292). -/
def Ctx.starting (x : Ctx) : Bool := x.egress && x.st = .idle && x.egFrame.isSome
def Ctx.isAudio (x : Ctx) : Bool := x.kind = 2 || x.kind = 3
/-- A frame whose lines come in two fields: interlaced or PsF. -/
def Ctx.twoFields (x : Ctx) : Bool := x.scan ≠ 0

/-! ## Picture formats (R280) -/

/-- Octets and pixels of a pgroup. -/
def pgroup (sampling depth : Nat) : Nat × Nat :=
  if sampling = 0 then (if depth = 8 then (4, 2) else if depth = 10 then (5, 2) else (6, 2))
  else if depth = 8 then (3, 1) else if depth = 10 then (15, 4) else (9, 2)

def Ctx.pg (x : Ctx) : Nat × Nat := pgroup x.sampling x.depth
/-- Octets of a line on the wire. -/
def Ctx.lineOct (x : Ctx) : Nat := x.width / x.pg.2 * x.pg.1
/-- Bytes per pixel in WORD layout. -/
def Ctx.wordPix (x : Ctx) : Nat := if x.sampling = 0 then 4 else 6
/-- Bytes of a line in its buffer, and PITCH. -/
def Ctx.lineBytes (x : Ctx) : Nat := if x.wordLay then x.width * x.wordPix else x.lineOct
def Ctx.pitch (x : Ctx) : Nat := (x.lineBytes + 63) / 64 * 64
/-- Lines of field `f`. -/
def Ctx.fieldLines (x : Ctx) (f : Nat) : Nat :=
  if x.twoFields then (if f = 0 then (x.height + 1) / 2 else x.height / 2) else x.height
/-- The frame line of row `r` of field `f`. -/
def Ctx.frameLine (x : Ctx) (f r : Nat) : Nat := if x.twoFields then 2 * r + f else r
/-- The place of that row in transmission order, from 1. -/
def Ctx.place (x : Ctx) (f r : Nat) : Nat := (if f = 0 then 0 else x.fieldLines 0) + r + 1

/-- The number that octets spell, most significant first. -/
def beNat (l : List Byte) : Nat := l.foldl (fun v b => 256 * v + b.toNat) 0
/-- The `n` octets of a number, most significant first. -/
def beBytes (n v : Nat) : List Byte := (leBytes n v).reverse

/-- The samples of octets in wire order, `d` bits each, most significant bit first. -/
def samples (d : Nat) (l : List Byte) : List Nat :=
  let v := beNat l
  let n := 8 * l.length / d
  (List.range n).map fun i => fld v (8 * l.length - d * (i + 1)) d

/-- Octets in wire order from samples of `d` bits. -/
def packSamples (d : Nat) (l : List Nat) : List Byte :=
  beBytes (d * l.length / 8) (l.foldl (fun v x => 2 ^ d * v + x % 2 ^ d) 0)

/-- Octets in wire order as their layout stores them: as they are, or one little-endian word for each sample. -/
def Ctx.store (x : Ctx) (l : List Byte) : List Byte :=
  if x.wordLay then (samples x.depth l).flatMap fun v => leBytes 2 (v * 2 ^ (16 - x.depth)) else l

/-- The little-endian words of a list of bytes. -/
def words16 : List Byte → List Nat
  | a :: b :: r => (a.toNat + 256 * b.toNat) :: words16 r
  | _ => []

/-- Bytes of a buffer as octets in wire order. -/
def Ctx.unstore (x : Ctx) (l : List Byte) : List Byte :=
  if x.wordLay then packSamples x.depth ((words16 l).map fun v => v / 2 ^ (16 - x.depth)) else l

/-- Byte place of pixel `px` of frame line `y`, and bytes that `n` wire octets take there. -/
def Ctx.pixAddr (x : Ctx) (y px : Nat) : Nat :=
  y * x.pitch + (if x.wordLay then px * x.wordPix else px / x.pg.2 * x.pg.1)
def Ctx.storedLen (x : Ctx) (oct : Nat) : Nat := if x.wordLay then oct / x.pg.1 * x.pg.2 * x.wordPix else oct

/-! ## Packets of a frame (R288, R290) -/

/-- The runs of one packet from line `l`, octet `o` on: whole pgroups, at most `segs` lines, `room` octets. Line, octet
offset, octets; and where the next packet begins. -/
def packetRuns (lineOct lines : Nat) : Nat → Nat → Nat → Nat → List (Nat × Nat × Nat) × Nat × Nat
  | 0, _, l, o => ([], l, o)
  | segs + 1, room, l, o =>
    if lines ≤ l ∨ room = 0 then ([], l, o)
    else
      let n := min room (lineOct - o)
      if o + n < lineOct then ([(l, o, n)], l, o + n)
      else
        let t := packetRuns lineOct lines segs (room - n) (l + 1) 0
        ((l, o, n) :: t.1, t.2)

/-- The packets of `lines` lines, each of at most `room` octets. -/
def packetsFrom (lineOct lines room : Nat) : Nat → Nat → Nat → List (List (Nat × Nat × Nat))
  | 0, _, _ => []
  | fuel + 1, l, o =>
    if lines ≤ l then []
    else
      let (runs, l', o') := packetRuns lineOct lines 3 room l o
      runs :: packetsFrom lineOct lines room fuel l' o'

/-- The packets of field `f` (or of the whole progressive frame) of a VIDEO context. -/
def Ctx.packets (x : Ctx) (f : Nat) : List (List (Nat × Nat × Nat)) :=
  let n := x.fieldLines f
  packetsFrom x.lineOct n (x.payload / x.pg.1 * x.pg.1) (n * (x.lineOct / x.pg.1)) 0 0

/-- Fields of a frame. -/
def Ctx.fields (x : Ctx) : List Nat := if x.kind = 0 ∧ x.twoFields then [0, 1] else [0]

/-- Octets on the wire around a payload: RTP, UDP, IPv4, Ethernet, FCS, preamble and gap, and the VLAN tag (R290). -/
def Ctx.overhead (x : Ctx) (b : Bool) : Nat := 12 + 8 + 20 + 14 + 4 + 8 + 12 + (if x.vlanOf b = 0 then 0 else 4)

/-- Samples of a packet time in each channel. -/
def Ctx.spp (x : Ctx) : Nat :=
  let rate := if x.kind = 2 ∧ x.p 0x40 56 1 = 1 then 96 else 48
  if x.p 0x40 55 1 = 1 then rate else rate / 8
/-- Octets of a sample on the wire: L16, L24, or an AES3 subframe. -/
def Ctx.sampleOct (x : Ctx) : Nat := if x.kind = 3 then 4 else if x.p 0x40 54 1 = 1 then 3 else 2

/-- Octets of the Ethernet frame that carries a packet of an audio context: the one kind whose fields could ask for more than the
9,216 of R267. -/
def Ctx.frameOct (x : Ctx) (b : Bool) : Nat := if x.isAudio then x.channels * x.spp * x.sampleOct + x.overhead b - 20 else 64

/-- Wire rate of path `b` in bit/s, rounded up, and packets per second, of an egress context on a grid (R290). -/
def Ctx.wireRate (x : Ctx) (b : Bool) (g : Grid) : Nat × Nat :=
  match x.kind with
  | 0 =>
    let ps := x.fields.flatMap x.packets
    let oct := (ps.map fun r => (r.map fun s => s.2.2).sum + 2 + 6 * r.length + x.overhead b).sum
    ((8 * oct * g.num + g.den - 1) / g.den, (ps.length * g.num + g.den - 1) / g.den)
  | 2 | 3 =>
    let n := if x.p 0x40 55 1 = 1 then 1000 else 8000
    (8 * n * (x.channels * x.spp * x.sampleOct + x.overhead b), n)
  | 1 | 4 => Config.openRate x.prm
  | _ => (0, 0)

/-! ## Port modes (R309) -/

/-- Line rate in bit/s and number of ports of a mode. -/
def modeRate (m : Nat) : Nat := [800, 400, 100, 25].getD m 0 * 1000000000
def modePorts (m : Nat) : Nat := [1, 2, 8, 8].getD m 0
def State.blkMode (s : State) (b : Nat) : Option Nat := (s.net.blk.get {} b).mode

/-- Port `p` of block `b` exists. -/
def State.portExists (s : State) (b p : Nat) : Bool := match s.blkMode b with | some m => decide (p < modePorts m) | none => false

/-- The contexts of engine `n` that are not FREE. -/
def State.ctxsOf (s : State) (n : Nat) : List (Nat × Ctx) :=
  s.net.ctx.ents.filter fun e => e.1 / 1024 = n && decide (e.2.st ≠ .free)

/-- Whether a context names port `p` on a path, and the rate it reserves there. -/
def Ctx.onPort (x : Ctx) (p : Nat) : Bool := x.kind ≠ 5 && (x.portOf false = p || (x.paths && x.portOf true = p))
def Ctx.rateOn (x : Ctx) (p : Nat) : Nat :=
  if x.egress ∧ x.kind ≠ 5 then
    (if x.portOf false = p then x.rate else 0) + (if x.portOf true = p then x.rateB else 0)
  else 0

/-- Wire rate reserved on port `p` of block `b`. -/
def State.portReserved (s : State) (b p : Nat) : Nat := ((s.ctxsOf b).map fun e => e.2.rateOn p).sum

/-- A reservation is within 97 % of a port's line rate (R267). -/
def withinPort (rate mode : Nat) : Bool := decide (100 * rate ≤ 97 * modeRate mode)

/-! ## Due times (R288, R291) -/

/-- Packet `n` of frame `f` of a VIDEO or PASS context is due at this time, with `n0` packets in the first field (or the
frame) and `n1` in the second: exact, rounded up to 2^-32 ns. -/
def Ctx.dueTime (x : Ctx) (g : Grid) (f n n0 n1 : Nat) : Nat :=
  let second := decide (n0 ≤ n) && decide (0 < n1)
  let k := if second then n - n0 else n
  let k := if x.pacing = 2 then k / 4 * 4 else k
  let cnt := if second then n1 else n0
  let halves := if 0 < n1 then 2 else 1
  -- frame start, half a frame for the second field, then k * TRS; with TRS = T / halves * (HEIGHT / TOTAL_LINES) / cnt
  let start := g.frameTime f
  let (hn, hd) := if x.pacing = 0 then (x.height, g.lines) else (1, 1)
  let base : Int := start + (x.tro * nsU : Nat)
  if x.kind = 1 ∧ x.pacing = 0 then (base + (k * Config.passSpacing x.prm n0 : Nat)).toNat
  else if x.kind = 4 then (base + (k * Config.ancSpacing x.prm n0 : Nat)).toNat
  else
    let num := secU * g.den * ((if second then cnt * hd else 0) + k * hn)
    let d := g.num * halves * cnt * hd
    (base + ceilDiv (num : Nat) d).toNat

/-- Packet time in 2^-32 ns. -/
def Ctx.ptime (x : Ctx) : Nat := (if x.p 0x40 55 1 = 1 then 1000000 else 125000) * nsU

/-- The engine forms a packet 2 µs before it is due. -/
def formLead : Nat := 2000 * nsU

/-! ## ANC records (R284) -/

/-- An ST 291 packet as its record. -/
def ancRecord (a : AncPkt) : List Byte :=
  leBytes 8 (pack [(a.line.toNat, 0), (a.off.toNat, 12), (a.stream.toNat, 24), (a.did.toNat, 32), (a.sdid.toNat, 40),
    (a.udw.length % 256, 48)]) ++ a.udw.flatMap fun w => leBytes 2 w.toNat

/-- The packet that a record holds, from its header and the bytes of its user data words. -/
def ancPkt (v : Nat) (words : List Byte) : AncPkt :=
  { line := BitVec.ofNat 11 v, off := BitVec.ofNat 12 (fld v 12 12), stream := BitVec.ofNat 4 (fld v 24 4)
    did := BitVec.ofNat 8 (fld v 32 8), sdid := BitVec.ofNat 8 (fld v 40 8), udw := (words16 words).map (BitVec.ofNat 10) }

/-- Bytes of a record whose header is `v`, and the 64-byte units it takes. -/
def ancBytes (v : Nat) : Nat := 8 + 2 * fld v 48 8
def ancUnits (bytes : Nat) : Nat := (bytes + 63) / 64

/-! ## SDI formats (R312) -/

/-- The field and row of a line that carries picture. PRESUMED from the SMPTE standards that R312 names; R317's example gives
line 42 of 1080p (log 23). -/
def sdiRow (w line : Nat) : Option (Nat × Nat) :=
  let (_, ht, scan, _, _) := fmtOf w
  let within := fun (lo hi f : Nat) => if lo ≤ line ∧ line ≤ hi then some (f, line - lo) else none
  match ht with
  | 486 => (within 21 263 0).orElse fun _ => within 283 525 1
  | 576 => (within 23 310 0).orElse fun _ => within 336 623 1
  | 720 => within 26 745 0
  | 2160 => within 83 2242 0
  | _ => if scan = 0 then within 42 1121 0 else (within 21 560 0).orElse fun _ => within 584 1123 1

/-- The first and the last line with picture. -/
def sdiActive (w : Nat) : Nat × Nat :=
  let l := (List.range (sdiLines w + 1)).filter fun n => (sdiRow w n).isSome
  (l.headD 0, l.getLastD 0)

/-- When line `n` (from 0) of a frame of format `w` that starts at `start` leaves. -/
def sdiAt (g : Grid) (w start n : Nat) : Nat := (start + ceilDiv (secU * g.den * n : Nat) (g.num * sdiLines w)).toNat

/-! ## Lanes (R297-R307) -/

/-- The Ethernet block and block lane of a lane; the SDI port; the host port A (0) or B (1) and port lane. -/
def laneEth (l : Nat) : Option (Nat × Nat) :=
  if 24 ≤ l ∧ l < 40 then some ((l - 24) / 8, l % 8) else if 48 ≤ l ∧ l < 64 then some ((l - 48) / 8 + 2, l % 8) else none
def laneSdi (l : Nat) : Option Nat := if 16 ≤ l % 24 then some (8 * (l / 24) + l % 24 - 16) else none
def lanePcie (l : Nat) : Option (Nat × Nat) :=
  if l < 16 then some (0, l) else if 72 ≤ l ∧ l < 88 then some (1, l - 72) else none
def sdiLane (j : Nat) : Nat := 24 * (j / 8) + 16 + j % 8
def ethLane (b i : Nat) : Nat := (if b < 2 then 24 else 32) + 8 * b + i

/-- The port of a block that a block lane belongs to, and the block lanes of a port (R309). -/
def modePort (m i : Nat) : Nat := if m = 0 then 0 else if m = 1 then i / 4 else i
def modeLanes (m p : Nat) : List Nat := (List.range 8).filter fun i => modePort m i = p

/-- The host link of a PCIe lane (R320). -/
def State.laneLink (s : State) (port k : Nat) : Nat :=
  2 * port + (if (if port = 0 then s.pwr.straps.bifA else s.pwr.straps.bifB) ∧ 8 ≤ k then 1 else 0)

/-- The lane's reference pair is ready (R298). -/
def State.refReady (s : State) (l : Nat) : Bool := s.srcReady (0x10 + l / 8)

/-- The SDI context of a port, if one exists. -/
def State.sdiCtx (s : State) (j : Nat) : Option Nat :=
  (s.net.ctx.ents.find? fun e => decide (e.2.st ≠ .free) && e.2.kind = 5 && e.2.portOf false = j).map (·.1)

def Ctx.runs (x : Ctx) : Bool := x.st = .active || x.st = .restarting

/-- The calibration of start-up has the lane: that of an Ethernet or video quad whose pair is ready, until it has ended, in RUN
too (R305). -/
def State.startCal (s : State) (l : Nat) : Bool :=
  !s.pwr.laneCal && s.netUp && (lanePcie l).isNone && s.refReady l

/-- A calibration or a self-test takes the lane: those of commands, and that of start-up (R303, R305). -/
def State.laneBusy (s : State) (l : Nat) : Bool := (s.lane l).jobs ≠ [] || s.startCal l

/-- VCC_LANE and VCC_LANE_TX are good: without them a lane neither receives nor drives (R420, R421). -/
def State.laneRails (s : State) : Bool := !(s.pwr.down.contains .lane || s.pwr.down.contains .laneTx)

/-! ## Status (R296) -/

def CtxState.code : CtxState → Nat
  | .free => 0 | .idle => 1 | .active => 2 | .restarting => 3

def Ctx.fsState (x : Ctx) : Nat :=
  pack [(x.st.code, 61), (bit x.world, 60), (bit x.egress, 59), (x.kind, 56), (bit x.upA, 55), (bit x.upB, 54), (x.bufIdx, 50),
    (if x.egress then x.src else 0, 30), (x.frames.toNat, 0)]

/-- SKEW_NS: the average of the last pairs, rounded towards minus infinity. -/
def Ctx.skewNs (x : Ctx) : Nat :=
  unsgn 32 (if x.skew = [] then 0 else x.skew.sum / ((x.skew.length * nsU : Nat) : Int))

/-- Word `i` of a context's 48-byte block. -/
def Ctx.stat (x : Ctx) (i : Nat) : Nat :=
  match i with
  | 0 => x.fsState
  | 1 => x.accepted.toNat
  | 2 => x.duplicate.toNat
  | 3 => pack [(x.invalid.toNat, 48), (x.late.toNat, 32), (x.lostCount.toNat, 16), (x.memFault.toNat, 0)]
  | 4 => pack [(x.done.toNat, 32), (x.incompl.toNat, 16), (x.overruns.toNat, 0)]
  | 5 => pack [(x.downsA.toNat, 48), (x.downsB.toNat, 32), (x.skewNs, 0)]
  | _ => 0

/-- SE_STATUS of an engine: contexts, merge windows, reserved rate in Mbit/s, rounded up over all paths. -/
def State.seStatus (s : State) (n : Nat) : Nat :=
  let l := s.ctxsOf n
  let rate := (l.map fun e => e.2.rate + e.2.rateB).sum
  pack [(l.length, 41), ((l.map fun e => if e.2.egress then 0 else e.2.window).sum % 4096, 29), ((rate + 999999) / 1000000 % 2 ^ 20, 0)]

end Sys2Proof.Machine
end

