-- ==== Sys2Proof/Machine/Flow.lean ====
section
/-! DEFINITION. Flow contexts: creation and deletion, enabling, ingress with its merge, descriptors, egress
(spec/13_swathe_stream_engines.md). -/

namespace Sys2Proof.Machine

/-! ## FLOW_CREATE (R267-R269, R290) -/

/-- A field that the context's kind, direction and paths give a meaning must lie in its range; any other must be zero. -/
def use (meaning ok : Bool) (v : Nat) : Bool := if meaning then ok else v = 0

/-- The fields of word `off` of the block, by rising bit, for engine `n`. -/
def Ctx.blockFields (x : Ctx) (s : State) (n off : Nat) : List Fd :=
  let k := x.kind
  let eg := x.egress
  let net := decide (k ≠ 5)
  let b := x.paths
  let pic := x.isPicture
  let aud := x.isAudio
  let f := fun (lo len : Nat) (m ok : Bool) => ((lo, len, use m ok (x.p off lo len)) : Fd)
  let port := fun v : Nat => if net then s.portExists n v else decide (8 * n ≤ v ∧ v < 8 * n + 8)
  let gridOk := (s.tl.grids.get none x.gridNo).isSome
  let fits := fun h : Nat => match s.buf h with
    | some y => !pic || decide (x.pitch * x.height ≤ 4096 * y.size)
    | none => false
  match off with
  | 0x00 =>
    [f 8 5 (!eg && (pic || k = 1)) (rng x.bufN 2 16), f 13 2 (eg && (k = 0 || k = 1)) (x.pacing ≤ 2), f 15 4 eg gridOk,
     f 19 1 (!eg && net) true, f 20 7 net (96 ≤ x.p 0 20 7), f 27 12 b (x.vlanOf true ≤ 4094),
     f 39 12 net (x.vlanOf false ≤ 4094), f 51 3 b (port (x.portOf true)), f 54 5 true (port (x.portOf false)),
     f 59 1 net true, f 60 3 true (k ≤ 5), f 63 1 true (net || eg = (s.sdi (x.portOf false)).out)]
  | 0x08 => [f 0 16 net true, f 16 16 net true, f 32 32 net true]
  | 0x10 => [f 0 32 net true, f 32 32 net true]
  | 0x18 => [f 0 16 b true, f 16 16 b true, f 32 32 b true]
  | 0x20 => [f 32 32 b true]
  | 0x28 => [f 2 6 (eg && net) true, f 8 8 (eg && net) true, f 16 48 (eg && net) true]
  | 0x30 => [f 16 48 (eg && b) true]
  | 0x38 =>
    let d := x.depth
    let dOk := if k = 5 then sdiDepth (x.p 0x38 0 64) else d = 8 || d = 10 || d = 12
    [f 27 1 pic true, f 28 4 pic dOk, f 32 3 pic (x.sampling ≤ 2), f 35 2 pic (x.scan ≤ 2), f 37 13 pic (rng x.height 1 4320),
     f 50 14 pic (rng x.width 16 8192 && (!dOk || x.width % x.pg.2 = 0))]
  | 0x40 => [f 54 1 (k = 2) true, f 55 1 aud true, f 56 1 (k = 2) true, f 57 7 aud (rng x.channels 1 64)]
  | 0x48 =>
    [f 27 7 (!eg && b) (rng x.window 1 64), f 34 11 (!eg && (pic || aud)) (x.every ≤ 1024), f 45 2 (!eg) true,
     f 47 17 (!eg) (x.descQ < 98304)]
  | 0x50 =>
    let l := x.p 0x50 27 20
    [f 27 20 (!eg) (rng l 100 1000000 || l = 0), f 47 17 (!eg && b) (rng (x.p 0x50 47 17) 10 100000)]
  | 0x58 =>
    [f 0 20 eg (fits (x.p 0x58 0 20)), f 20 14 (eg && (k = 0 || k = 1)) (rng x.payload 64 8960), f 34 30 (eg && net) true]
  | 0x60 =>
    let r := x.ringHandle
    let ringUse := aud || k = 4 || k = 5
    [f 0 24 ringUse (k = 5 || 1 ≤ x.ringSize), f 24 20 ringUse ((s.buf r).isSome || ((eg || k = 5) && r = 0)), f 48 16 eg true]
  | _ =>
    let i := 3 * ((off - 0x68) / 8)
    let ring := !eg && (pic || k = 1)
    (List.range 3).map fun j => f (20 * j) 20 (ring && i + j < x.bufN) (fits (x.bufHandle (i + j)))

/-- The byte offset of the block's first faulty field. -/
def Ctx.blockFault (x : Ctx) (s : State) (n : Nat) : Option Nat :=
  (List.range 19).findSome? fun i =>
    (wordFault (x.prm.getD i 0).toNat 0 (x.blockFields s n (8 * i))).map fun lo => 8 * i + lo / 8

/-- The handles a block names. -/
def Ctx.handles (x : Ctx) : List Nat :=
  let ring := if x.egress then [] else (List.range x.bufN).map x.bufHandle
  let src := if x.egress then [x.p 0x58 0 20] else []
  (ring ++ src ++ [x.ringHandle]).filter (· ≠ 0)

/-- Buffers and descriptor queue are reachable from the context's world (R268). -/
def Ctx.reach (x : Ctx) (s : State) : Bool :=
  (x.handles.all fun h => match s.buf h with | some b => reaches x.world b.world && !b.isStore | none => true) &&
    (x.egress || reaches x.world (s.qWorld x.descQ))

/-- The capacities of R267 hold with the new context. -/
def State.hasRoom (s : State) (n : Nat) (x : Ctx) : Bool :=
  let l := s.ctxsOf n
  let frameOk : Bool := decide (x.frameOct false ≤ 9216) && (!x.paths || decide (x.frameOct true ≤ 9216))
  if x.kind = 5 then l.all fun e => !(e.2.kind = 5 && e.2.portOf false = x.portOf false)
  else if ¬ x.egress then frameOk && decide ((l.map fun e => if e.2.egress then 0 else e.2.window).sum + x.window ≤ 2048)
  else
    let eg := l.filter fun e => e.2.egress
    let rate := (eg.map fun e => e.2.rate + e.2.rateB).sum + x.rate + x.rateB
    let pps := (eg.map fun e => if e.2.paths then 2 * e.2.pps else e.2.pps).sum + (if x.paths then 2 * x.pps else x.pps)
    let mode := (s.blkMode n).getD 0
    let ok := fun p => withinPort (s.portReserved n p + x.rateOn p) mode
    frameOk && decide (rate ≤ 800000000000 ∧ pps ≤ 100000000) && ok (x.portOf false) && (!x.paths || ok (x.portOf true))

/-- 64-bit words of bytes. -/
def words64 : List Byte → Nat → List (BitVec 64)
  | _, 0 => []
  | l, n + 1 => BitVec.ofNat 64 (leNat (l.take 8)) :: words64 (l.drop 8) n

/-- The context takes the world of the command: always non-secure for a non-secure host (R268, log 22). -/
def flowCreate (s : State) (h : Nat) (c : Cmd) : Ans :=
  let n := c.f 0 0 2
  match readBlock s h c 1 152 with
  | (_, .error a) => a
  | (s, .ok bytes) =>
    let x : Ctx := { st := .idle, world := c.world, prm := words64 bytes 19, creator := h }
    let x := { x with src := if x.egress then x.p 0x58 0 20 else 0 }
    match x.blockFault s n with
    | some o => .badBlock s o
    | none =>
      let x := match s.tl.grids.get none x.gridNo with
        | some g =>
          if x.egress ∧ x.kind ≠ 5 then
            { x with
              rate := (x.wireRate false g).1, rateB := if x.paths then (x.wireRate true g).1 else 0
              pps := (x.wireRate false g).2 }
          else x
        | none => x
      if ¬ x.reach s then .denied s h c
      else
        match ((List.range 1024).map (1024 * n + ·)).find? fun k => decide ((s.ctx k).st = .free) with
        | some k => if s.hasRoom n x then { s := s.setCtx k x, res := [k] } else .noRes s
        | none => .noRes s

def execFlowCreate (h : HostId) (s : State) : Res := runCmd h 0x0501 anyCmd flowCreate s

/-! ## Descriptors (R285, R286, R504) -/

/-- Credits the engine holds on the context's descriptor queue: none without a slot. -/
def State.descCredit (s : State) (c : Nat) : Nat :=
  let q := s.queue (s.ctx c).descQ
  match q.slotOf (srcCode 1 (c / 1024)) with
  | some i => (q.slot i).held - (q.slot i).due
  | none => 0

/-- A descriptor word. TIME_NS is the nanosecond of the engine's heath. -/
def State.descWord (s : State) (c kind : Nat) (inc prev : Bool) (idx line : Nat) : BitVec 64 :=
  let t := s.heathNow (1 + c / 2048) % secU / nsU
  BitVec.ofNat 64 (pack [(kind, 62), (bit inc, 61), (bit prev, 60), (c, 48), (idx, 44), (line % 2 ^ 14, 30), (t, 0)])

/-- The word announces a line. -/
def isLine (w : BitVec 64) : Bool := w.toNat / 2 ^ 62 = 0
/-- DESCRIPTOR_PUSH: the oldest descriptor goes to the queue, on the engine's slot, while it holds credit. -/
def State.pushDesc (s : State) (c : Nat) : State :=
  let x := s.ctx c
  match x.wait with
  | [] => s
  | w :: rest =>
    if s.descCredit c = 0 ∨ s.qCol x.descQ = .retention then s
    else
      let s := s.setCtx c { x with wait := rest }
      let (t, r) := s.hgPush (srcCode 1 (c / 1024)) x.world x.descQ x.descPrio w
      if r = .world then t.deny 1 c 2 x.descQ else t

def execDescriptorPush (c : CtxId) (s : State) : Res := if s.netUp then .next (s.pushDesc c) else .next s

/-- Push all that credit allows; one push for each waiting word. -/
def State.pushAll (s : State) (c : Nat) : State := each (List.range (s.ctx c).wait.length) (fun _ s => s.pushDesc c) s

/-- A LINE descriptor falls due: in place of one that waits, which has no credit, since what had any has been pushed. -/
def State.dueLine (s : State) (c : Nat) (w : BitVec 64) : State :=
  (s.pushAll c).updCtx c fun x => { x with wait := x.wait.filter (!isLine ·) ++ [w] }

/-- Another descriptor falls due: lost when four of them wait without credit, with one event for each run of losses. -/
def State.dueOther (s : State) (c : Nat) (w : BitVec 64) : State :=
  let s := s.pushAll c
  let x := s.ctx c
  if (x.wait.filter (!isLine ·)).length < 4 then s.setCtx c { x with wait := x.wait ++ [w], overrun := false }
  else
    let s := s.setCtx c { x with overruns := satInc x.overruns, overrun := true }
    if x.overrun then s else s.event [x.creator] 0x0505 [c]

/-! ## The merge (R273-R276) -/

/-- Distance of a number from another, modulo 2^32, signed. -/
def seqDist (a b : Nat) : Int := sgn 32 (a + 2 ^ 32 - b % 2 ^ 32)
def seqAdd (a n : Nat) : Nat := (a + n) % 2 ^ 32

/-- Extended number of a packet: carried (VIDEO), or the 16-bit number nearest to M (wraps counted). -/
def Ctx.extSeq (x : Ctx) (p : Packet) : Nat :=
  if x.kind = 0 then p.ext.toNat * 2 ^ 16 + p.seq.toNat
  else seqAdd x.mPt ((sgn 16 (p.seq.toNat + 2 ^ 32 - x.mPt)) % (2 ^ 32 : Int)).toNat

/-- A number above M is taken: in rising order above M. -/
def insSeq (m v : Nat) : List Nat → List Nat
  | [] => [v]
  | w :: r => if seqDist v m < seqDist w m then v :: w :: r else w :: insSeq m v r

/-- M passes over the numbers taken directly above it. -/
def passTaken (m : Nat) : List Nat → Nat × List Nat
  | [] => (m, [])
  | w :: r => if w = seqAdd m 1 then passTaken w r else (m, w :: r)

/-- Runs of untaken numbers above `m` up to `n`. -/
def gaps (m n : Nat) : List Nat → List (Nat × Nat)
  | [] => if seqDist n m ≤ 0 then [] else [(seqAdd m 1, (seqDist n m).toNat)]
  | w :: r =>
    if seqDist n m ≤ 0 then []
    else if seqDist n w < 0 then [(seqAdd m 1, (seqDist n m).toNat)]
    else
      let k := (seqDist w m).toNat - 1
      (if k = 0 then [] else [(seqAdd m 1, k)]) ++ gaps w n r

/-- The number was declared lost. -/
def inRuns (l : List (Nat × Nat)) (v : Nat) : Bool := l.any fun r => (v + 2 ^ 32 - r.1) % 2 ^ 32 < r.2

/-- A frame holds a number of the run. -/
def FrameRec.holds (f : FrameRec) (r : Nat × Nat) : Bool :=
  let last := seqAdd r.1 (r.2 - 1)
  decide (0 ≤ seqDist last f.first) && (match f.last with | some e => decide (0 ≤ seqDist e r.1) | none => true)

/-- Numbers lost just before the first that a frame has, `r.2` of them, are the frame's own as well as its predecessor's, which is
still without its last: certainly for VIDEO, whose frame has not its row 0; where frames do not show their start, of more than
one number. DESIGN CHOICE (log 22): R274 does not say to which of two frames such numbers belong. -/
def Ctx.sharesGap (x : Ctx) (n : Nat) : Bool := x.kind = 0 || decide (2 ≤ n)

/-- A run of lost numbers marks every frame it belongs to: those that it reaches into, and the next one that has not its start;
else the one to be begun. -/
def Ctx.markLost (x : Ctx) (r : Nat × Nat) : Ctx :=
  let last := seqAdd r.1 (r.2 - 1)
  let hit := fun f : FrameRec => f.holds r &&
    !(x.frs.any fun g => decide (0 < seqDist g.first f.first) && decide (0 ≤ seqDist r.1 g.first))
  let next := x.frs.find? fun g => decide (0 < seqDist g.first last)
  let inFrame := x.frs.any hit
  let cut := fun g : FrameRec => next = some g && !g.begun && (!inFrame || (g.first = seqAdd last 1 && x.sharesGap r.2))
  if inFrame || next.isSome then { x with frs := x.frs.map fun g => if hit g || cut g then { g with incomplete := true } else g }
  else { x with nextInc := true }

/-- A frame is done: M has passed its last number, or all before the first of a later frame. -/
def Ctx.doneFrame (x : Ctx) (f : FrameRec) (rest : List FrameRec) : Bool :=
  match f.last with
  | some l => decide (0 ≤ seqDist x.mPt l)
  | none => match rest with | g :: _ => decide (0 ≤ seqDist (seqAdd x.mPt 1) g.first) | [] => false

/-- The line descriptors that have fallen due in a frame. -/
def State.tellLines (s : State) (c : Nat) (f : FrameRec) : State × FrameRec :=
  let x := s.ctx c
  let e := x.every
  let passed := f.ends.filter fun t => decide (0 ≤ seqDist x.mPt t.2.2)
  let top := (passed.map (·.1)).foldl max f.told
  if e = 0 then (s, { f with told := top })
  else
    let places := (List.range (top - f.told)).map (f.told + 1 + ·)
    let line := fun p : Nat =>
      if x.twoFields then (if p ≤ x.fieldLines 0 then 2 * (p - 1) else 2 * (p - 1 - x.fieldLines 0) + 1) else p - 1
    (each (places.filter fun p => p % e = 0) (fun p s => s.dueLine c (s.descWord c 0 f.incomplete false f.idx (line p))) s,
      { f with told := top })

/-- The descriptors of a frame that is done, and its counts. -/
def State.endFrame (s : State) (c : Nat) (f : FrameRec) : State :=
  let x := s.ctx c
  let inc := f.incomplete
  let s := s.setCtx c { x with done := satAdd x.done 1, incompl := if inc then satInc x.incompl else x.incompl }
  if x.kind = 4 then s.dueOther c (s.descWord c 3 inc false 0 f.recs)
  else
    let s := s.dueOther c (s.descWord c 1 inc f.prevInt f.idx (if x.kind = 1 then f.recs else x.height))
    if x.kind = 5 ∧ x.ringSize ≠ 0 then s.dueOther c (s.descWord c 3 inc false 0 f.recs) else s

/-- What becomes visible as M stands: lines, then frames, oldest first. A frame that is done stays until a later one opens, so
that more packets of its timestamp open none (R281). -/
def State.settle (s : State) (c : Nat) : List FrameRec → List FrameRec → State
  | [], acc => s.updCtx c fun x => { x with frs := acc.reverse }
  | f :: rest, acc =>
    if f.done then s.settle c rest (if rest = [] then f :: acc else acc)
    else
      let x := s.ctx c
      let (s, f) := if x.isPicture then s.tellLines c f else (s, f)
      if acc = [] ∧ x.doneFrame f rest = true then
        (s.endFrame c f).settle c rest (if rest = [] then [{ f with done := true }] else [])
      else s.settle c rest (f :: acc)

/-- Audio blocks: a descriptor for every LINE_DESC_EVERY numbers that M passes; of each, whether it makes its block incomplete. -/
def State.blocks (s : State) (c : Nat) (nums : List Bool) : State :=
  each nums (fun inc s =>
    let x := s.ctx c
    let b := x.blkInc || inc
    if x.every ≠ 0 ∧ x.every ≤ x.blk + 1 then
      let s := s.setCtx c { x with blk := 0, blks := x.blks + 1, blkInc := false }
      s.dueOther c (s.descWord c 2 b false 0 x.blks)
    else s.setCtx c { x with blk := x.blk + 1, blkInc := b }) s

/-- M advances to `m`, over taken numbers, and what it passes becomes visible. -/
def State.advance (s : State) (c m : Nat) : State :=
  let x := s.ctx c
  let (m', rest) := passTaken m (x.taken.filter fun v => decide (0 < seqDist v m))
  let nums := (List.range (seqDist m' x.mPt).toNat).map fun i => seqAdd x.mPt (i + 1)
  let s := s.setCtx c { x with mPt := m', taken := rest, badWr := x.badWr.filter fun v => decide (0 < seqDist v m') }
  let s := if x.isAudio then s.blocks c (nums.map fun v => inRuns x.lost v || x.badWr.contains v) else s
  s.settle c (s.ctx c).frs []

/-- Every untaken number up to `n` is declared lost: counted, its frame marked, one FLOW_GAP. -/
def State.declareLost (s : State) (c n : Nat) : State :=
  let x := s.ctx c
  match gaps x.mPt n x.taken with
  | [] => s
  | r :: rs =>
    let runs := r :: rs
    let cnt := (runs.map (·.2)).sum
    let near := (x.lost ++ runs).filter fun t => decide (seqDist n t.1 ≤ 2 ^ 24)
    let x := runs.foldl Ctx.markLost { x with lostCount := satAdd x.lostCount cnt, lost := near }
    ((s.setCtx c x).event [x.creator] 0x0503 [c, r.1, cnt]).advance c n

/-- A restart or a discontinuity: the interrupted frame has no descriptor, and the merge record is cleared (R278). -/
def Ctx.restart (x : Ctx) : Ctx :=
  { x with
    st := .restarting, prevInt := x.prevInt || x.frs.any (!·.done), frs := [], badWr := [], preRecs := 0, taken := [], lost := [], nextInc := false, arr := []
    blk := 0, blkInc := false }

/-! ## Writing what arrives (R280-R284, R287) -/

/-- A write that does not end OK: counted and reported; the frame of number `q` is incomplete. -/
def State.flowPut (s : State) (c h off : Nat) (data : List Byte) : State × Bool :=
  if data = [] then (s, true)
  else
    let g := s.bufPut { kind := 1, index := c, world := (s.ctx c).world } h off data
    if g.st = hsOk then (g.s, true)
    else
      let s := g.s.updCtx c fun x => { x with memFault := satInc x.memFault }
      (s.event [(s.ctx c).creator] 0x0506 [c, h, off], false)

/-- Change the frame of a timestamp. -/
def State.updFrame (s : State) (c : Nat) (ts : BitVec 32) (f : FrameRec → FrameRec) : State :=
  s.updCtx c fun x => { x with frs := x.frs.map fun g => if g.ts = ts then f g else g }

/-- Store one ST 291 packet, as a record of R284, in the ring; a record never straddles the wrap. -/
def State.putAnc (s : State) (c : Nat) (a : AncPkt) : State × Bool :=
  let x := s.ctx c
  let rec_ := ancRecord a
  let u := ancUnits rec_.length
  let at_ := if x.ringSize < x.ring + u then 0 else x.ring
  let s := s.setCtx c { x with ring := if x.ringSize ≤ at_ + u then 0 else at_ + u }
  s.flowPut c x.ringHandle (64 * at_) rec_

/-- Store the rows of a video packet and note the lines they end. -/
def State.putRows (s : State) (c num : Nat) (ts : BitVec 32) (rows : List (Nat × Nat × Nat × List Byte)) : State :=
  each rows (fun (r, fl, px, oct) s =>
    let x := s.ctx c
    match x.frs.find? fun f => f.ts = ts with
    | some f =>
      let (s, ok) := s.flowPut c (x.bufHandle f.idx) (x.pixAddr (x.frameLine fl r) px) (x.store oct)
      let ends := decide (x.lineOct ≤ px / x.pg.2 * x.pg.1 + oct.length)
      s.updFrame c ts fun f => { f with
        incomplete := f.incomplete || !ok
        ends := if ends then f.ends ++ [(x.place fl r, x.frameLine fl r, num)] else f.ends }
    | none => s) s

/-- Store the samples of audio packet `num` at the places of the media clock. -/
def State.putAudio (s : State) (c num : Nat) (ts : BitVec 32) (oct : List Byte) : State :=
  let x := s.ctx c
  let n := x.sampleOct
  let groups := oct.length / (n * x.channels)
  each (List.range groups) (fun i s =>
    let data := (List.range x.channels).flatMap fun ch =>
      let v := beNat ((oct.drop (n * (i * x.channels + ch))).take n)
      leBytes 4 (v * 2 ^ (32 - 8 * n))
    let pos := (ts.toNat + i) % 2 ^ 32 % x.ringSize
    let (s, ok) := s.flowPut c x.ringHandle (4 * (x.channels * pos)) data
    if ok then s else s.updCtx c fun x => { x with badWr := num :: x.badWr.erase num }) s

/-- Store a pass-through record; payload beyond the buffer is discarded and the frame incomplete. -/
def State.putRecord (s : State) (c num : Nat) (p : Packet) (oct : List Byte) : State :=
  let x := s.ctx c
  match x.frs.find? fun f => f.ts = p.ts with
  | some f =>
    let h := x.bufHandle f.idx
    let size := match s.buf h with | some b => 4096 * b.size | none => 0
    let hdr := leBytes 8 (pack [(oct.length % 2 ^ 16, 0), (bit p.marker, 16), (num, 32)])
    let body := oct ++ List.replicate ((8 - oct.length % 8) % 8) 0
    let data := hdr ++ body
    let kept := if size = 0 then data else data.take (size - f.used)
    let (s, ok) := s.flowPut c h f.used kept
    s.updFrame c p.ts fun f => { f with
      recs := f.recs + 1, used := f.used + data.length, incomplete := f.incomplete || !ok || decide (kept.length < data.length) }
  | none => s

def State.putBody (s : State) (c num : Nat) (p : Packet) : State :=
  match p.body with
  | .video rows => s.putRows c num p.ts rows
  | .raw oct => if (s.ctx c).kind = 1 then s.putRecord c num p oct else s.putAudio c num p.ts oct
  | .anc recs =>
    each recs (fun r s =>
      let (s, ok) := s.putAnc c r
      s.updFrame c p.ts fun f => { f with recs := f.recs + 1, incomplete := f.incomplete || !ok }) s

/-! ## INGRESS_PACKET (R271, R272) -/

/-- The packet's addresses match path `b` of the context on port `p`. -/
def Ctx.onPath (x : Ctx) (p : Nat) (k : Packet) (b : Bool) : Bool :=
  (!b || x.paths) && x.portOf b = p && x.vlanOf b = k.vlan.toNat && x.dstIp b = k.dstIp.toNat && x.dstUdp b = k.dstUdp.toNat

/-- Its source matches the path's filter. -/
def Ctx.srcOk (x : Ctx) (k : Packet) (b : Bool) : Bool :=
  (x.srcIp b = 0 || x.srcIp b = k.srcIp.toNat) && (x.srcUdp b = 0 || x.srcUdp b = k.srcUdp.toNat)

/-- Check 3: RTP version, payload type, SSRC. -/
def Ctx.rtpOk (x : Ctx) (k : Packet) : Bool :=
  k.version = 2 && x.p 0 20 7 = k.pt.toNat && (x.p 0 19 1 = 0 || x.p 0x10 0 32 = k.ssrc.toNat)

/-- A timestamp is no longer new. -/
def Ctx.noteTs (x : Ctx) (ts : BitVec 32) : Ctx := { x with oldTs := (ts :: x.oldTs.filter (· ≠ ts)).take 65536 }

/-- A packet of a kind whose frames begin with their first packet, whatever it carries, has been met (R271). -/
def Ctx.met (x : Ctx) (k : Packet) : Ctx := if x.kind = 1 ∨ x.kind = 4 then x.noteTs k.ts else x

/-- The packet names row 0, offset 0, of the first field. -/
def opens (k : Packet) : Bool := match k.body with | .video ((0, 0, 0, _) :: _) => true | _ => false

/-- A frame start under R271. A VIDEO timestamp is new until a frame has been opened with it: the packet that names row 0, offset
0 is the frame's first whichever path brings it. That of PASS or ANC is new until a packet of either path has shown it. -/
def Ctx.isStart (x : Ctx) (k : Packet) : Bool :=
  let fresh := !x.oldTs.contains k.ts
  match x.kind with
  | 0 => fresh && opens k
  | 2 | 3 => true
  | _ => fresh

/-- Check 5: the payload is well formed for the kind. -/
def Ctx.formed? (x : Ctx) (b : Body) : Bool :=
  match x.kind, b with
  | 0, .video rows =>
    rng rows.length 1 3 && rows.all fun (r, fl, px, oct) =>
      decide (fl ≤ 1) && (x.twoFields || fl = 0) && decide (r < x.fieldLines fl) && px % x.pg.2 = 0 && oct.length % x.pg.1 = 0 &&
        decide (0 < oct.length ∧ px / x.pg.2 * x.pg.1 + oct.length ≤ x.lineOct)
  | 1, .raw _ => true
  | 2, .raw oct => oct.length = x.channels * x.spp * x.sampleOct
  | 3, .raw oct => oct.length % (4 * x.channels) = 0
  | 4, .anc recs => recs.all fun r => decide (r.udw.length ≤ 255)
  | _, _ => false

def State.invalidPkt (s : State) (c : Nat) : State := s.updCtx c fun x => { x with invalid := satInc x.invalid }

/-- A packet reaches step 6 on a path: the path is up (R277). -/
def State.pathSeen (s : State) (c : Nat) (b : Bool) : State :=
  let x := s.ctx c
  if (if b then x.upB else x.upA) then s
  else
    let s := s.setCtx c (if b then { x with upB := true } else { x with upA := true })
    s.event [x.creator, s.pwr.owner] 0x0502 [c, bit b]

/-- Arrival times of one number on both paths give a sample of SKEW_NS (R296). -/
def Ctx.arrived (x : Ctx) (num : Nat) (b : Bool) (t : Nat) : Ctx :=
  if ¬ x.paths then x
  else
    match x.arr.find? fun a => a.1 = num && a.2.1 ≠ b with
    | some (_, _, u) =>
      let d : Int := if b then (t : Int) - u else (u : Int) - t
      { x with arr := x.arr.filter (·.1 ≠ num), skew := (d :: x.skew).take 1024 }
    | none => { x with arr := (x.arr.filter fun a => decide (seqDist x.mPt a.1 < 65536)) ++ [(num, b, t)] }

/-- The ring index of the next frame to open. -/
def Ctx.nextIdx (x : Ctx) : Nat := if x.firstFrame ∨ x.bufN = 0 then 0 else (x.bufIdx + 1) % x.bufN

/-- The packet is of the first field of a picture that has two. -/
def Ctx.firstField (x : Ctx) (b : Body) : Bool :=
  match b with
  | .video rows => x.isPicture && x.twoFields && rows.all fun r => r.2.1 = 0
  | _ => false

/-- An accepted packet joins its frame, which a new timestamp opens. The marker ends the frame; one that ends a first field, of
the two that share a timestamp (R289), does not. DEDUCED (log 22). -/
def Ctx.join (x : Ctx) (num : Nat) (k : Packet) : Ctx :=
  if x.isAudio then x
  else
    let mark := fun f : FrameRec => { f with
      first := if seqDist num f.first < 0 then num else f.first
      high := if 0 < seqDist num f.high then num else f.high
      begun := f.begun || opens k
      last := if k.marker ∧ ¬ x.firstField k.body then some num else f.last }
    if x.frs.any fun f => f.ts = k.ts then { x with frs := x.frs.map fun f => if f.ts = k.ts then mark f else f }
    else
      let lost := fun n : Nat => inRuns x.lost (seqAdd num (2 ^ 32 - n))
      let cut := !opens k && lost 1 && x.sharesGap (if lost 2 then 2 else 1)
      let f : FrameRec := {
        ts := k.ts, idx := x.nextIdx, first := num, high := num, incomplete := (x.nextInc && (x.kind = 5 || !opens k)) || cut, prevInt := x.prevInt, recs := x.preRecs }
      { x.noteTs k.ts with
        frs := x.frs ++ [mark f], preRecs := 0, bufIdx := x.nextIdx, frames := x.frames + 1, firstFrame := false, prevInt := false
        nextInc := false }

/-- Number `num` is accepted. -/
def State.acceptPkt (s : State) (c num : Nat) (k : Packet) : State :=
  let s := s.updCtx c fun x => { x with accepted := satInc x.accepted, taken := insSeq x.mPt num x.taken }
  let s := (s.updCtx c fun x => x.join num k).putBody c num k
  s.advance c (s.ctx c).mPt

/-- Step 6: the merge of R274 and R276. -/
def State.merge6 (s : State) (c num : Nat) (k : Packet) : State :=
  let x := s.ctx c
  let d := seqDist num x.mPt
  if 2 ^ 24 ≤ d ∨ d < -(2 ^ 24) then
    let s := s.event [x.creator] 0x0504 [c, num]
    (s.updCtx c Ctx.restart).invalidPkt c
  else if d ≤ 0 ∨ x.taken.contains num = true then
    if inRuns x.lost num then s.setCtx c { x with late := satInc x.late }
    else s.setCtx c { x with duplicate := satInc x.duplicate }
  else
    let w := 1024 * x.window
    let s := s.acceptPkt c num k
    if (w : Int) < d then s.declareLost c (seqAdd num (2 ^ 32 - w)) else s

/-- The checks 2 to 6 for a context and path. -/
def State.ctxPacket (s : State) (c : Nat) (b : Bool) (k : Packet) : State :=
  let x := s.ctx c
  let bad := (s.invalidPkt c).updCtx c fun x => if x.rtpOk k then x.met k else x
  if ¬ x.srcOk k b ∨ ¬ x.rtpOk k then s.invalidPkt c
  else if x.st ≠ .active ∧ ¬ (x.st = .restarting ∧ x.isStart k) then bad
  else if ¬ x.formed? k.body then bad
  else
    let num := x.extSeq k
    let s := if x.st = .restarting then
        s.setCtx c { x with st := .active, mPt := seqAdd num (2 ^ 32 - 1), taken := [], lost := [] }
      else s
    let s := (s.pathSeen c b).updCtx c fun x => (x.arrived num b s.tl.now).met k
    s.merge6 c num k

/-- The context and path that a packet on port `p` of block `b` is for: one whose source filter it passes, if any. -/
def State.matchCtx (s : State) (b p : Nat) (k : Packet) : Option (Nat × Bool) :=
  let cands := (s.ctxsOf b).flatMap fun e => if e.2.egress || e.2.kind = 5 then [] else
    ([false, true].filter fun q => e.2.onPath p k q).map fun q => (e.1, q)
  (cands.find? fun (c, q) => (s.ctx c).srcOk k q).orElse fun _ => cands.head?

/-- HOLD, or its entry: ingress contexts take no packets and no new packet is formed (R429). -/
def State.netHeld (s : State) : Bool := s.pwr.mode = .hold || s.pwr.entering.isSome

/-- Octets that a payload takes in its packet, headers of R290 apart. -/
def bodyOct (k : Body) : Nat :=
  match k with
  | .video rows => 2 + 6 * rows.length + (rows.map fun r => r.2.2.2.length).sum
  | .raw oct => oct.length
  | .anc recs => (recs.map fun r => (ancRecord r).length).sum

/-- Octets on the wire of a packet that arrives. -/
def wireOct (k : Packet) : Nat := 78 + (if k.vlan = 0 then 0 else 4) + bodyOct k.body

/-- What has arrived on a port within the span over which rates are taken. -/
def State.lately (s : State) (k : Nat) : List (Nat × Nat) := (s.port k).seen.filter fun a => decide (s.tl.up - a.1 ≤ Config.rateSpan)

/-- Frames that arrive now are beyond the packet rate of the engine or the line rate of the port (R267, log 22). -/
def State.overRate (s : State) (b p : Nat) : Bool :=
  let n := ((List.range 8).map fun i => (s.lately (8 * b + i)).length).sum
  let o := ((s.lately (8 * b + p)).map (·.2)).sum
  (n ≠ 0 && decide (100000000 * Config.rateSpan ≤ n * secU)) ||
    (o ≠ 0 && decide (modeRate ((s.blkMode b).getD 0) * Config.rateSpan ≤ 8 * o * secU))

/-- A frame of so many octets is taken in at port `k`, or refused there and counted. -/
def State.noteFrame (s : State) (k oct : Nat) : State := s.updPort k fun x => { x with seen := (s.tl.up, oct) :: s.lately k }
def State.refuseFrame (s : State) (k : Nat) : State := s.updPort k fun x => { x with refused := x.refused + 1 }

/-- INGRESS_PACKET. In HOLD, and beyond the rates of R267, the port block refuses and counts it. -/
def execIngressPacket (b : BlockId) (p : Fin 8) (k : Packet) (s : State) : Res :=
  if ¬ (s.port (8 * b + p)).en then .next s
  else if s.netHeld ∨ (s.netUp ∧ s.overRate b p) then .next (s.refuseFrame (8 * b + p))
  else if ¬ s.netUp then .next s
  else
    let s := s.noteFrame (8 * b + p) (wireOct k)
    match if k.ipUdp then s.matchCtx b p k else none with
    | some (c, q) => .next (s.ctxPacket c q k)
    | none => .next (s.updPort (8 * b + p) fun x => { x with unmatched := satInc x.unmatched })

/-- MERGE_WAIT_EXPIRY: numbers left untaken up to `upTo` since a higher number was taken. -/
def execMergeWaitExpiry (c : CtxId) (upTo : Nat) (s : State) : Res :=
  let x := s.ctx c
  match x.taken.getLast? with
  | some h =>
    let n := upTo % 2 ^ 32
    let n := if seqDist h n ≤ 0 then seqAdd h (2 ^ 32 - 1) else n
    if s.netUp ∧ 0 < seqDist n x.mPt then .next (s.declareLost c n) else .next s
  | none => .next s

/-- PATH_LOSS_TIMEOUT: no packet of the path has reached step 6 for PATH_LOSS_US. -/
def execPathLossTimeout (c : CtxId) (pathB : Bool) (s : State) : Res :=
  let x := s.ctx c
  if ¬ (if pathB then x.upB else x.upA) ∨ ¬ s.netUp then .next s
  else
    let s := s.setCtx c (if pathB then { x with upB := false, downsB := satInc x.downsB }
      else { x with upA := false, downsA := satInc x.downsA })
    .next (s.event [x.creator, s.pwr.owner] 0x0501 [c, bit pathB])

/-! ## Enabling, disabling, restarting (R270, R271, R278, R279, R292) -/

/-- The first frame of the grid whose first packet is formed at least 2 µs from now; the packet interval, for audio. -/
def State.egStart (s : State) (c : Nat) : Option Nat :=
  let x := s.ctx c
  let t := s.heathNow (1 + c / 2048) + 2 * formLead
  if x.isAudio then some ((t - x.tro * nsU + x.ptime - 1) / x.ptime)
  else (s.tl.grids.get none x.gridNo).map fun g =>
    let est := ((t : Int) - g.phase * nsU - x.tro * nsU).toNat * g.num / (secU * g.den)
    ([est - 1, est, est + 1, est + 2].find? fun f => decide ((t : Int) ≤ g.frameTime f + (x.tro * nsU : Nat))).getD (est + 3)

/-- The group of path `b` of an ingress context, where its destination is one. -/
def Ctx.group (x : Ctx) (b : Bool) : Option Nat :=
  if x.kind ≠ 5 ∧ ¬ x.egress ∧ (b → x.paths) ∧ fld (x.dstIp b) 28 4 = 14 then some (x.dstIp b) else none

/-- Padding of a membership report for one group and source, whose frame has 62 octets with its FCS (PRESUMED from RFC 3376, log 23;
R310). -/
def reportPad : Nat := 64 - 62

/-- A membership report for the group of path `b` of a context, on its port while that is up (R270). -/
def State.igmpReport (s : State) (c : Nat) (b : Bool) : State :=
  let x := s.ctx c
  let k := 8 * (c / 1024) + x.portOf b
  match x.group b with
  | some g =>
    let (g, src) := (BitVec.ofNat 32 g, BitVec.ofNat 32 (x.srcIp b))
    if (s.port k).up then s.emit (.igmp k g src reportPad (Config.reportFcs k g src)) else s
  | none => s

/-- The reports of every ingress context that runs, for one port: the answer to a membership query, and what the warden says on a
link that comes up (R270; when it reports unasked no rule says: log 22). -/
def State.igmpAnswer (s : State) (k : Nat) : State :=
  each ((s.ctxsOf (k / 8)).filter fun e => e.2.runs) (fun e s =>
    let s := if e.2.portOf false = k % 8 then s.igmpReport e.1 false else s
    if e.2.portOf true = k % 8 then s.igmpReport e.1 true else s) s

/-- A read of a context's source: data, or none when it did not end OK, counted and reported. -/
def State.flowGet (s : State) (c h off n : Nat) : State × Option (List Byte) :=
  let g := s.bufRead { kind := 1, index := c, world := (s.ctx c).world } h off n
  if g.st = hsOk then (g.s, some g.data)
  else
    let s := g.s.updCtx c fun x => { x with memFault := satInc x.memFault }
    (s.event [(s.ctx c).creator] 0x0506 [c, h, off], none)

/-- Records of a pass-through frame: those up to the one with the marker (DEDUCED: log 22). -/
def State.passCount (s : State) (c : Nat) : Nat → Nat → Nat
  | 0, _ => 0
  | fuel + 1, off =>
    let x := s.ctx c
    match (s.flowGet c x.src off 8).2 with
    | none => 1
    | some hd =>
      let v := leNat hd
      if fld v 16 1 = 1 then 1 else 1 + s.passCount c fuel (off + 8 + (fld v 0 16 + 7) / 8 * 8)

/-- A frame begins to form: the latched handle comes into force (R293), and the context is ACTIVE (R292). A packet of audio is no
frame. How many records the ring holds for a frame of ANC, and in how many packets they leave, no rule says: free values, one
packet at least (R291, log 22). -/
def State.beginFrame (s : State) (c : Nat) : State :=
  let s := s.updCtx c fun x => { x with
    src := x.srcNext.getD x.src, srcNext := none, egOff := 0, st := .active
    frames := if x.isAudio then x.frames else x.frames + 1 }
  let x := s.ctx c
  if x.kind = 1 then
    let size := match s.buf x.src with | some b => 512 * b.size | none => 1
    s.setCtx c { x with egN := s.passCount c size 0 }
  else if x.kind = 4 then
    let (u, s) := s.draw
    let (v, s) := s.draw
    let n := u.toNat % (x.ringSize + 1)
    s.setCtx c { x with egRecs := n, egN := 1 + v.toNat % max 1 n }
  else s

/-- An SDI output runs: set up, with its reference pair ready and the lane rails good (R298, R315, R318). -/
def State.sdiRuns (s : State) (j : Nat) : Bool :=
  s.netUp && s.laneRails && (s.sdi j).out && (s.sdi j).cur.isSome && s.refReady (sdiLane j)

/-- The content of an SDI output's frame begins to form 2 µs before its first active line leaves (R295): a context that runs, or
whose enable came 2 µs before that at least (R292), takes its latched handle. A lane under test has no context, nor has the rest of
the frame in which the test ends (R303). -/
def State.sdiBegin (s : State) (j : Nat) : State :=
  let x := s.sdi j
  match x.cur, s.tl.grids.get none x.grid with
  | some cur, some g =>
    let line := sdiAt g x.fmt.toNat cur ((sdiActive x.fmt.toNat).1 - 1)
    if s.sdiRuns j ∧ ¬ x.formed ∧ line ≤ s.heathNow (j / 8) + formLead then
      let s := s.updSdi j fun y => { y with formed := true }
      match if s.laneBusy (sdiLane j) ∨ x.apart then none else s.sdiCtx j with
      | some c =>
        let y := s.ctx c
        if y.egress ∧ (y.runs ∨ (y.starting ∧ y.egFrame.all fun t => decide (t + formLead ≤ line))) then s.beginFrame c else s
      | none => s
    else s
  | _, _ => s

/-- What has begun to form by now, before a command or a launch acts on context `c`. -/
def State.sdiCatchUp (s : State) (c : Nat) : State :=
  let x := s.ctx c
  if x.kind = 5 ∧ x.egress then s.sdiBegin (x.portOf false) else s

/-- FLOW_ENABLE takes effect; false when the context already runs or is to start. An egress context becomes ACTIVE as its first
frame begins to form; for an SDI output `egFrame` is the time from which a frame may. A frame that FLOW_DISABLE closed and M has
not passed is announced now, since the merge record is cleared. DESIGN CHOICE (log 22). -/
def State.flowEnable (s : State) (c : Nat) : State × Bool :=
  let x := s.ctx c
  if x.st ≠ .idle ∨ x.starting then (s, false)
  else if x.egress then
    let first := if x.kind = 5 then some (s.heathNow (1 + c / 2048) + formLead) else s.egStart c
    (s.setCtx c { x with egFrame := first, egPkt := 0 }, true)
  else
    let s := each (x.frs.filter (!·.done)) (fun f s => s.endFrame c f) s
    let s := s.updCtx c fun x => { x.restart with firstFrame := true, prevInt := false }
    ((s.igmpReport c false).igmpReport c true, true)

/-- A frame in progress is closed: incomplete, at the highest number accepted (R279). A frame whose last packet has come is not
in progress. -/
def Ctx.close (x : Ctx) : Ctx := { x with frs := x.frs.map fun f =>
  if f.last.isNone then { f with incomplete := true, last := some f.high } else f }

/-- FLOW_DISABLE takes effect; false when the context is IDLE. An egress packet already formed is still sent. -/
def State.flowDisable (s : State) (c : Nat) : State × Bool :=
  let x := s.ctx c
  if x.st ≠ .active ∧ x.st ≠ .restarting ∧ ¬ x.starting then (s, false)
  else if x.egress then (s.setCtx c { x with st := .idle, egFrame := none, egPkt := 0 }, true)
  else
    let s := s.setCtx c { x.close with st := .idle }
    (s.advance c (s.ctx c).mPt, true)

/-- FLOW_RESTART takes effect. Egress: the frame after the one in progress is next. -/
def State.flowRestart (s : State) (c : Nat) : State :=
  let x := s.ctx c
  if x.egress then
    let next := if x.egPkt = 0 then x.egFrame else x.egFrame.map (· + 1)
    s.setCtx c { x with st := .restarting, egFrame := next, egPkt := 0 }
  else s.setCtx c x.restart

/-- A command on a context: its number must name a created one that the host's world reaches. -/
def onCtx (f : State → Nat → Cmd → Ans) (s : State) (h : Nat) (c : Cmd) : Ans :=
  let k := c.f 0 0 12
  let s := s.sdiCatchUp k
  let x := s.ctx k
  if x.st = .free then .bad s 0 0
  else if ¬ reaches c.world x.world then .denied s h c
  else f s k c

def execFlowEnable (h : HostId) (s : State) : Res :=
  runCmd h 0x0503 anyCmd (onCtx fun s k _ => let (t, ok) := s.flowEnable k; if ok then { s := t } else .ignored s) s

def execFlowDisable (h : HostId) (s : State) : Res :=
  runCmd h 0x0504 anyCmd (onCtx fun s k _ => let (t, ok) := s.flowDisable k; if ok then { s := t } else .ignored s) s

def execFlowRestart (h : HostId) (s : State) : Res :=
  runCmd h 0x0505 anyCmd (onCtx fun s k _ => if (s.ctx k).st = .idle then .ignored s else { s := s.flowRestart k }) s

/-- FLOW_SOURCE_SWITCH: BAD_ARG on ingress, DENIED for a buffer that the host's world does not reach. -/
def execFlowSourceSwitch (h : HostId) (s : State) : Res :=
  runCmd h 0x0506 anyCmd (onCtx fun s k c =>
    let reach : Bool := match s.buf (c.f 1 0 20) with | some b => reaches c.world b.world && !b.isStore | none => true
    if ¬ (s.ctx k).egress then .bad s 0 0
    else if ¬ reach then .denied s h c
    else { s := s.updCtx k fun x => { x with srcNext := some (c.f 1 0 20) } }) s

/-- Padding of a frame whose headers, VLAN tag, payload and FCS make up a number of octets: to 64 (R310). -/
def framePad (vlan payload : Nat) : Nat := 64 - (58 + (if vlan = 0 then 0 else 4) + payload)

/-- A formed packet as it leaves on path `b`: the addresses and fields of R269, the sequence number of R289, padding and FCS. Port p
of a block has the block's address + p (R353). -/
def Ctx.sent (x : Ctx) (mac : BitVec 48) (b : Bool) (p : Formed) : Sent :=
  let q : Sent := {
    port := x.portOf b, srcMac := mac + BitVec.ofNat 48 (x.portOf b), dstMac := x.dstMac b, vlan := BitVec.ofNat 12 (x.vlanOf b)
    dscp := BitVec.ofNat 6 (x.p 0x28 2 6), ttl := BitVec.ofNat 8 (x.p 0x28 8 8), srcIp := BitVec.ofNat 32 (x.srcIp b)
    dstIp := BitVec.ofNat 32 (x.dstIp b), srcUdp := BitVec.ofNat 16 (x.srcUdp b), dstUdp := BitVec.ofNat 16 (x.dstUdp b)
    pt := BitVec.ofNat 7 (x.p 0 20 7), seq := x.seq, ts := p.ts, marker := p.marker, ssrc := BitVec.ofNat 32 (x.p 0x10 0 32)
    body := p.body, pad := framePad (x.vlanOf b) (bodyOct p.body) }
  { q with fcs := Config.packetFcs q }

/-- Path `b` of context `c` has a port that is enabled and up. -/
def State.pathUp (s : State) (c : Nat) (b : Bool) : Bool :=
  let x := s.ctx c
  let q := s.port (8 * (c / 1024) + x.portOf b)
  (!b || x.paths) && q.en && q.up

/-- The oldest formed packet leaves on every path whose port is up. Its number is used in any case; it counts as sent when it has
left on some path (R289, R296). -/
def State.sendFormed (s : State) (c : Nat) : State :=
  let x := s.ctx c
  match x.formed with
  | [] => s
  | p :: rest =>
    let mac := (s.net.blk.get {} (c / 1024)).mac
    let send := fun (b : Bool) (s : State) => if s.pathUp c b then s.emit (.packet c (bit b) p.due (x.sent mac b p)) else s
    let left := s.pathUp c false || s.pathUp c true
    (send true (send false s)).updCtx c fun x => { x with
      formed := rest, seq := x.seq + 1, accepted := if left then satInc x.accepted else x.accepted
      done := if p.whole && left then satInc x.done else x.done }

/-- Every formed packet leaves. -/
def State.sendAll (s : State) (c : Nat) : State := each (List.range (s.ctx c).formed.length) (fun _ s => s.sendFormed c) s

/-- FLOW_DELETE: as FLOW_DISABLE (a packet already formed still leaves), then the context is FREE; the descriptors still
pending, and those of frames not yet described, are discarded and counted in the response. Its counters stay until the context
is created again. -/
def flowDelete (s : State) (k : Nat) (_ : Cmd) : Ans :=
  let s := ((s.flowDisable k).1.pushAll k).sendAll k
  let x := s.ctx k
  let n := x.wait.length + (if x.egress ∨ x.isAudio then 0 else (x.frs.filter (!·.done)).length)
  let s := s.setCtx k {
    accepted := x.accepted, duplicate := x.duplicate, invalid := x.invalid, late := x.late, lostCount := x.lostCount
    memFault := x.memFault, done := x.done, incompl := x.incompl, overruns := x.overruns, downsA := x.downsA
    downsB := x.downsB, skew := x.skew, frames := x.frames }
  { s := s.disarmAll cTargetDeleted (Cue.atFlow k), res := [n] }

def execFlowDelete (h : HostId) (s : State) : Res := runCmd h 0x0502 anyCmd (onCtx flowDelete) s

/-- FLOW_QUERY: FS_STATE and words 0x00 to 0x20 of the block; a FREE context too can be asked for. -/
def flowQuery (s : State) (h : Nat) (c : Cmd) : Ans :=
  let x := s.ctx (c.f 0 0 12)
  if ¬ reaches c.world x.world then .denied s h c
  else { s := s, res := x.fsState :: (List.range 5).map fun i => (x.prm.getD i 0).toNat }

def execFlowQuery (h : HostId) (s : State) : Res := runCmd h 0x0507 anyCmd flowQuery s

/-- A change of a context's world, from its next packet on (R268). -/
def State.setCtxWorld (s : State) (k : Nat) (w : Bool) : State := s.updCtx k fun x => { x with world := w }

/-! ## Cues (R42, R293) -/

def execCueFlowEnable (k : CueKey) (s : State) : Res :=
  .next (s.launch k 0x0202 true fun s c _ => ((s.sdiCatchUp c.target).flowEnable c.target).1)

def execCueFlowDisable (k : CueKey) (s : State) : Res :=
  .next (s.launch k 0x0203 true fun s c _ => ((s.sdiCatchUp c.target).flowDisable c.target).1)

def execCueFlowSourceSwitch (k : CueKey) (s : State) : Res :=
  .next (s.launch k 0x0201 true fun s c _ => (s.sdiCatchUp c.target).updCtx c.target fun x => { x with srcNext := some (c.arg % 2 ^ 20) })

/-! ## Egress (R288-R294) -/

/-- Octets of a payload whose every sample is FILL: DEPTH bits of a picture, an audio sample, else 16 bits, the last cut short
(log 22). -/
def Ctx.fillOct (x : Ctx) (n : Nat) : List Byte :=
  match x.kind with
  | 0 | 5 => packSamples x.depth (List.replicate (8 * n / x.depth) x.fillVal)
  | 2 | 3 => (List.replicate (n / x.sampleOct) (beBytes x.sampleOct x.fillVal)).flatten
  | _ => ((List.replicate ((n + 1) / 2) (leBytes 2 x.fillVal)).flatten).take n

/-- Read the runs of a video packet of field `f`; any failing read fills the whole payload. -/
def State.videoPayload (s : State) (c f : Nat) (runs : List (Nat × Nat × Nat)) : State × Body :=
  let x := s.ctx c
  let px := fun r : Nat × Nat × Nat => r.2.1 / x.pg.1 * x.pg.2
  let (s, rows, ok) := runs.foldl (fun (acc : State × List (Nat × Nat × Nat × List Byte) × Bool) r =>
    if acc.2.2 then
      let (s, d) := acc.1.flowGet c x.src (x.pixAddr (x.frameLine f r.1) (px r)) (x.storedLen r.2.2)
      match d with
      | some d => (s, acc.2.1 ++ [(r.1, f, px r, x.unstore d)], true)
      | none => (s, [], false)
    else acc) (s, [], true)
  (s, .video (if ok then rows else runs.map fun r => (r.1, f, px r, x.fillOct r.2.2)))

/-- Read the samples of the packet interval ending at media time `k`: sample by sample in their ring places. -/
def State.audioPayload (s : State) (c k : Nat) : State × Body :=
  let x := s.ctx c
  let n := x.sampleOct
  let (s, data, ok) := (List.range x.spp).foldl (fun (acc : State × List Byte × Bool) i =>
    if acc.2.2 then
      let pos := ((k - 1) * x.spp + i) % 2 ^ 32 % x.ringSize
      let (s, d) := acc.1.flowGet c x.src (4 * (x.channels * pos)) (4 * x.channels)
      match d with
      | some d =>
        (s, acc.2.1 ++ (List.range x.channels).flatMap fun ch =>
          beBytes n (leNat ((d.drop (4 * ch)).take 4) / 2 ^ (32 - 8 * n)), true)
      | none => (s, [], false)
    else acc) (s, [], true)
  (s, .raw (if ok then data else x.fillOct (x.channels * x.spp * n)))

/-- Read the next record of a pass-through frame. -/
def State.passPayload (s : State) (c : Nat) : State × Body :=
  let x := s.ctx c
  match s.flowGet c x.src x.egOff 8 with
  | (s, none) => (s, .raw (x.fillOct x.payload))
  | (s, some hd) =>
    let n := fld (leNat hd) 0 16
    let s := s.updCtx c fun x => { x with egOff := x.egOff + 8 + (n + 7) / 8 * 8 }
    match s.flowGet c x.src (x.egOff + 8) n with
    | (s, some d) => (s, .raw d)
    | (s, none) => (s, .raw (x.fillOct n))

/-- Take the next record from the ring of buffer `h`, whole: where it would straddle the wrap, it stands at the ring's start. -/
def State.ancRecord (s : State) (c h : Nat) : State × Option AncPkt :=
  let x := s.ctx c
  let (s, v) := s.flowGet c h (64 * x.ring) 8
  let u := ancUnits (ancBytes (leNat (v.getD [])))
  let at_ := if x.ringSize < x.ring + u then 0 else x.ring
  let (s, v) := if at_ = x.ring then (s, v) else s.flowGet c h 0 8
  match v with
  | none => (s, none)
  | some hd =>
    let v := leNat hd
    let u := ancUnits (ancBytes v)
    let (s, d) := s.flowGet c h (64 * at_ + 8) (ancBytes v - 8)
    (s.updCtx c fun y => { y with ring := if y.ringSize ≤ at_ + u then 0 else at_ + u }, d.map (ancPkt v))

/-- Read the records of one ANC packet: those left, in the frame's last; a free number of them, in another (R291). A packet with
a read that fails carries FILL, of a length that no rule gives (R294, log 22). -/
def State.ancPayload (s : State) (c : Nat) : State × Body :=
  let x := s.ctx c
  let (v, s) := s.draw
  let n := if x.egN ≤ x.egPkt + 1 then x.egRecs else v.toNat % (x.egRecs + 1)
  let s := s.setCtx c { x with egRecs := x.egRecs - n }
  let (s, recs, ok) := (List.range n).foldl (fun (acc : State × List AncPkt × Bool) _ =>
    match acc.1.ancRecord c x.src with
    | (s, some a) => (s, acc.2.1 ++ [a], acc.2.2)
    | (s, none) => (s, acc.2.1, false)) (s, [], true)
  if ok then (s, .anc recs)
  else
    let (w, s) := s.draw
    (s, .raw (x.fillOct (w.toNat % 8961)))

/-- Packets of each field of the frame in hand. -/
def Ctx.counts (x : Ctx) : Nat × Nat :=
  match x.kind with
  | 0 => ((x.packets 0).length, if x.twoFields then (x.packets 1).length else 0)
  | 1 | 4 => (x.egN, 0)
  | _ => (1, 0)

/-- When the packet in hand is due: none without a grid. -/
def State.egDue (s : State) (c : Nat) : Option Nat :=
  let x := s.ctx c
  x.egFrame.bind fun f =>
    if x.isAudio then some (f * x.ptime + x.tro * nsU)
    else
      (s.tl.grids.get none x.gridNo).map fun g => x.dueTime g f x.egPkt x.counts.1 x.counts.2

/-- RTP timestamp: the frame start in the media clock of 90 kHz; the first sample of the interval, for audio; 2^32 wraps.
Rounded down where it is not whole (log 22). -/
def Ctx.rtpTs (x : Ctx) (g : Option Grid) (f : Nat) : BitVec 32 :=
  if x.isAudio then BitVec.ofNat 32 ((f - 1) * x.spp)
  else
    match g with
    | some g => BitVec.ofNat 32 ((g.frameTime f).toNat * 90000 / secU)
    | none => 0

/-- The packet in hand is the last of its frame or field, and of its frame. -/
def Ctx.lastPkt (x : Ctx) : Bool × Bool :=
  let (n0, n1) := x.counts
  let whole := decide (n0 + n1 ≤ x.egPkt + 1)
  (whole || decide (x.egPkt + 1 = n0), whole)

/-- EGRESS_PACKET_FORM: from 2 µs before its due time, the next packet's payload is read. -/
def execEgressPacketForm (c : CtxId) (s : State) : Res :=
  let x := s.ctx c
  let due0 := if x.isAudio ∨ x.egPkt ≠ 0 then s.egDue c
    else x.egFrame.bind fun f => (s.tl.grids.get none x.gridNo).map fun g => (g.frameTime f).toNat + x.tro * nsU
  match x.egFrame, due0 with
  | some f, some t =>
    if s.netUp ∧ ¬ s.netHeld ∧ x.egress ∧ x.kind ≠ 5 ∧ (x.st = .active ∨ x.st = .restarting ∨ x.starting) ∧
        t ≤ s.heathNow (1 + c / 2048) + formLead then
      let s := if x.egPkt = 0 then s.beginFrame c else s
      let x := s.ctx c
      let (s, body) : State × Body := match x.kind with
        | 0 =>
          let n0 := (x.packets 0).length
          if x.egPkt < n0 then s.videoPayload c 0 ((x.packets 0).getD x.egPkt [])
          else s.videoPayload c 1 ((x.packets 1).getD (x.egPkt - n0) [])
        | 1 => s.passPayload c
        | 4 => s.ancPayload c
        | _ => s.audioPayload c f
      let (marker, whole) := x.lastPkt
      let ts := x.rtpTs (s.tl.grids.get none x.gridNo) f
      .next (s.updCtx c fun y => { y with
        formed := y.formed ++ [{ due := (s.egDue c).getD t, ts := ts, marker := marker, whole := whole && !x.isAudio, body := body }]
        egPkt := if whole then 0 else x.egPkt + 1, egFrame := some (if whole then f + 1 else f) })
    else .next s
  | _, _ => .next s

/-- EGRESS_PACKET_SEND: at its due time the oldest formed packet leaves. -/
def execEgressPacketSend (c : CtxId) (s : State) : Res :=
  match (s.ctx c).formed with
  | [] => .next s
  | p :: _ => if s.netUp ∧ p.due ≤ s.heathNow (1 + c / 2048) then .next (s.sendFormed c) else .next s

end Sys2Proof.Machine
end

