-- ==== Sys2Proof/Machine/Lanes.lean ====
section
/-! DEFINITION. Serial lanes, Ethernet ports and SDI framers (spec/14_serial_lanes_and_sdi.md). -/

namespace Sys2Proof.Machine

/-! ## Lanes (R297-R307) -/

/-- A lane is in use (R302). No Ethernet or video lane is before start-up calibration has ended (R305). -/
def State.laneUsed (s : State) (l : Nat) : Bool :=
  match laneEth l, laneSdi l, lanePcie l with
  | some (b, i), _, _ =>
    s.pwr.laneCal && (match s.blkMode b with | some m => (s.port (8 * b + modePort m i)).en | none => false)
  | _, some j, _ => s.pwr.laneCal && (match s.sdiCtx j with | some c => (s.ctx c).runs | none => false)
  | _, _, some (p, k) =>
    let x := s.link (s.laneLink p k)
    decide (2 ≤ x.st.toNat ∧ x.st.toNat ≤ 3 ∧ k - (if s.laneLink p k % 2 = 1 then 8 else 0) < x.width.toNat)
  | _, _, _ => false

/-- STATE of LANE_STATUS. In BOOT a PCIe lane whose link has outlived the reset is in use still (R419). -/
def State.laneState (s : State) (l : Nat) : Nat :=
  let x := s.lane l
  if s.pwr.mode = .boot then (if (lanePcie l).isSome ∧ s.laneUsed l then 3 else 0)
  else if (laneSdi l).isSome ∧ s.pwr.mode = .hold then 0
  else if (lanePcie l).isNone ∧ ¬ s.laneRails then 5
  else if ¬ s.refReady l then 6
  else if s.startCal l then 1
  else
    match x.jobs with
    | (_, t, _) :: _ => if t then 4 else 1
    | [] => match x.st with | .off => 0 | .failed => 5 | .ready => if s.laneUsed l then 3 else 2

def State.laneStatus (s : State) (l : Nat) : Nat :=
  let x := s.lane l
  pack [(x.los.toNat, 48), (x.eye.toNat, 40), (s.laneState l, 29), (bit x.signal, 28), (bit x.polInv, 27), (bit x.txPol, 26),
    (bit x.pam4, 25), (x.rate.toNat, 0)]

/-- The taps of a lane follow a procedure of its link: PCIe equalisation, or the training of the port's PMD clause (R300). -/
def State.laneTrains (s : State) (l : Nat) : Bool :=
  (lanePcie l).isSome ||
    (match laneEth l with
    | some (b, i) => (match s.blkMode b with | some m => Config.pmdTrains (8 * b + modePort m i) | none => false)
    | none => false)

/-- The procedure sets the taps of lanes: to values that no rule gives (log 10). -/
def State.trainTaps (s : State) (ls : List Nat) : State :=
  each ls (fun l s => let (v, s) := s.draw; s.updLane l fun x => { x with taps := v.setWidth 35 }) s

/-- LANE_CONFIGURE: TX_POL_INV, and the taps where no training or PCIe procedure sets them. -/
def laneConfigure (s : State) (_ : Nat) (c : Cmd) : Ans :=
  let l := c.f 0 0 7
  let taps := BitVec.ofNat 35 (pack ((List.range 5).map fun k => (c.f 1 (8 * k) 7, 7 * k)))
  { s := s.updLane l fun x => { x with
      txPol := c.f 0 7 1 = 1, taps := if s.laneTrains l then x.taps else taps } }

def execLaneConfigure (h : HostId) (s : State) : Res := runCmd h 0x050B anyCmd laneConfigure s

/-- The table of R302: QUEUED behind earlier work on the lane, that of start-up too, NOT_READY, BUSY, or run now (`none`). -/
def State.laneTurn (s : State) (l : Nat) : Option (BitVec 8) :=
  if s.laneBusy l then some stQueued
  else if ¬ s.refReady l then some stNotReady
  else if s.laneUsed l then some stBusy
  else none

/-- LANE_CALIBRATE: one that runs at once has its single response at its end. -/
def laneCalibrate (s : State) (h : Nat) (c : Cmd) : Ans :=
  let l := c.f 0 0 7
  let add := fun q => s.updLane l fun x => { x with jobs := x.jobs ++ [(c.bg h, false, q)] }
  match s.laneTurn l with
  | some st => if st = stQueued then .queued (add true) else { s := s, status := st }
  | none => { s := add false, wait := true }

def execLaneCalibrate (h : HostId) (s : State) : Res := runCmd h 0x0A03 anyCmd laneCalibrate s

/-- A self-test pattern fits the lane's encoding (R304). -/
def patternFits (pam4 : Bool) (p : Nat) : Bool := if pam4 then 8 ≤ p else p ≤ 4

/-- LANE_SELFTEST: always QUEUED first. -/
def laneSelftest (s : State) (h : Nat) (c : Cmd) : Ans :=
  let l := c.f 0 0 7
  let add := s.updLane l fun x => { x with jobs := x.jobs ++ [(c.bg h, true, true)] }
  if ¬ patternFits (s.lane l).pam4 (c.f 0 8 4) then .bad s 0 8
  else
    match s.laneTurn l with
    | some st => if st = stQueued then .queued add else { s := s, status := st }
    | none => .queued add

def execLaneSelftest (h : HostId) (s : State) : Res := runCmd h 0x0A04 anyCmd laneSelftest s

/-- A test of the lane has ended: an SDI context joins it at the next frame start (R303). -/
def State.sdiApart (s : State) (l : Nat) : State :=
  match laneSdi l with
  | some j => s.updSdi j fun x => { x with apart := true }
  | none => s

/-- A lane's calibration of a command ends; not while that of start-up has the lane. Without the lane rails it fails (R421). -/
def execLaneCalibrationDone (l : LaneId) (ok : Bool) (eye : BitVec 8) (s : State) : Res :=
  if s.startCal l then .next s
  else
  match (s.lane l).jobs with
  | (b, false, q) :: rest =>
    let ok := ok && s.laneRails
    let s := (s.sdiApart l).updLane l fun x => { x with jobs := rest, eye := eye, st := if ok then .ready else .failed }
    let st := if ok then stOk else stFailed
    if q then .next (s.finish b st) else .next (s.replyTo b.host b.seq fun s => { s := s, status := st })
  | _ => .next s

/-- A lane's self-test ends: bits checked, errors and EYE_MARGIN; not while the calibration of start-up has the lane. -/
def execLaneSelftestDone (l : LaneId) (bits errors : BitVec 64) (eye : BitVec 8) (s : State) : Res :=
  if s.startCal l then .next s
  else
  match (s.lane l).jobs with
  | (b, true, _) :: rest =>
    let s := (s.sdiApart l).updLane l fun x => { x with jobs := rest, eye := eye }
    .next (s.finish b stOk 0 [bits.toNat, errors.toNat, eye.toNat])
  | _ => .next s

/-- LANE_FAULT to the owner: cause 0 signal, 1 lock, 2 calibration. -/
def State.laneFault (s : State) (l cause : Nat) : State := s.ownerEvent 0x0508 [l, cause]

/-- STARTUP_LANE_CAL_DONE: every Ethernet and video lane whose pair is ready has been calibrated once (R305); without the lane rails
it fails (R421). -/
def execStartupLaneCalDone (failed : List LaneId) (s : State) : Res :=
  if s.pwr.laneCal ∨ ¬ s.netUp then .next s
  else
    let s := { s with pwr.laneCal := true }
    let lanes := (List.range 96).filter fun l => (lanePcie l).isNone && s.refReady l
    .next (each lanes (fun l s =>
      let bad := (failed.any fun f => f.val = l) || !s.laneRails
      let s := (s.sdiApart l).updLane l fun x => { x with st := if bad then .failed else .ready }
      if bad then s.laneFault l 2 else s) s)

/-- An SDI input without a signal is locked to none (R318). -/
def State.sdiUnlock (s : State) (l : Nat) : State :=
  match laneSdi l with
  | some j => if (s.sdi j).out then s else s.updSdi j fun x => { x with carrier := false, aligned := false }
  | none => s

/-- LANE_SIGNAL_RETURN: the signal is back and the clock recovery locked; polarity as R306 gives. -/
def execLaneSignalReturn (l : LaneId) (inverted : Bool) (s : State) : Res :=
  let x := s.lane l
  if x.signal ∨ ¬ s.laneRails then .next s
  else .next (s.setLane l { x with signal := true, polInv := inverted && (laneSdi l).isNone })

/-! ## Ethernet ports (R309-R311) -/

/-- The lanes' encoding and rate in a block mode (R299). -/
def State.setBlkLanes (s : State) (b m : Nat) : State :=
  each (List.range 8) (fun i s => s.updLane (ethLane b i) fun x => { x with
    pam4 := decide (m ≠ 3), rate := if m = 3 then 25781 else 106250 }) s

/-- PORT_BLOCK_SET. -/
def portBlockSet (s : State) (_ : Nat) (c : Cmd) : Ans :=
  let b := c.f 0 0 2
  let m := c.f 0 4 2
  let ports := modePorts m
  let named := (s.ctxsOf b).any fun e => e.2.kind ≠ 5 &&
    (decide (ports ≤ e.2.portOf false) || (e.2.paths && decide (ports ≤ e.2.portOf true)))
  let tooFast := (List.range 8).any fun p => !withinPort (s.portReserved b p) m
  if (List.range 8).any (fun p => (s.port (8 * b + p)).en) ∨ named ∨ tooFast then .busy s
  else
    let s := { s with net.blk := s.net.blk.set {} b { mode := some m, mac := BitVec.ofNat 48 (c.f 1 0 48) } }
    { s := s.setBlkLanes b m }

def execPortBlockSet (h : HostId) (s : State) : Res := runCmd h 0x0508 anyCmd portBlockSet s

/-- A link that goes down: counted, with its event. -/
def State.linkDown (s : State) (b p : Nat) (hiBer : Bool) : State :=
  let x := s.port (8 * b + p)
  if x.up then
    (s.setPort (8 * b + p) { x with up := false, lock := hiBer, hiBer := hiBer, downs := satInc x.downs }).ownerEvent 0x0509 [b, p]
  else s

/-- A link goes down with the signal of any of its lanes (R311). -/
def State.ethUnlock (s : State) (l : Nat) : State :=
  match laneEth l with
  | some (b, i) => match s.blkMode b with | some m => s.linkDown b (modePort m i) false | none => s
  | none => s

/-- A lane's signal is lost: counted, reported when `fault`, and its framer or its port's link goes with it (R307, R311). -/
def State.loseSignal (s : State) (l : Nat) (fault : Bool) : State :=
  let x := s.lane l
  let s := if x.signal then (s.setLane l { x with signal := false, los := satInc x.los }).sdiUnlock l else s
  (if fault then s.laneFault l 0 else s).ethUnlock l

/-- LANE_LOSS_OF_SIGNAL (R307). On a lane that has none it is the signal that does not come back: a failure to lock
(DESIGN CHOICE, log 23). -/
def execLaneLossOfSignal (l : LaneId) (s : State) : Res :=
  if (s.lane l).signal then .next (s.loseSignal l (s.laneUsed l))
  else .next (if s.laneUsed l then s.laneFault l 1 else s)

def portSet (on : Bool) (s : State) (_ : Nat) (c : Cmd) : Ans :=
  let b := c.f 0 0 2
  let p := c.f 0 4 3
  match s.blkMode b with
  | none => .bad s 0 4
  | some m =>
    let x := s.port (8 * b + p)
    if modePorts m ≤ p then .bad s 0 4
    else if x.en = on then .ignored s
    else if on ∧ (modeLanes m p).any (fun i => s.laneBusy (ethLane b i)) = true then .busy s
    else if on then { s := s.setPort (8 * b + p) { x with en := true } }
    else
      let s := s.linkDown b p false
      { s := s.updPort (8 * b + p) fun x => { x with en := false, lock := false, hiBer := false, anDone := false } }

/-- PORT_ENABLE with ARG0[8] set. -/
def execPortEnable (h : HostId) (s : State) : Res := runCmd h 0x0509 (fun c => c.f 0 8 1 = 1) (portSet true) s
/-- PORT_ENABLE with ARG0[8] clear. -/
def execPortDisable (h : HostId) (s : State) : Res := runCmd h 0x0509 (fun c => c.f 0 8 1 = 0) (portSet false) s

/-- ETH_LINK_DOWN. -/
def execEthLinkDown (b : BlockId) (p : Fin 8) (hiBer : Bool) (s : State) : Res := .next (s.linkDown b p hiBer)

/-- ETH_LINK_UP: every lane of an enabled port has lock; none before the calibration of start-up has ended (R305). FEC is the mode's, or the one a 25GbE link runs. Where the PMD trains its
links, that has completed and set the taps. Reports of R270 follow for the port's groups. -/
def execEthLinkUp (b : BlockId) (p : Fin 8) (fec : BitVec 2) (s : State) : Res :=
  let x := s.port (8 * b + p)
  match s.blkMode b with
  | some m =>
    if x.en ∧ ¬ x.up ∧ p.val < modePorts m ∧ (m ≠ 3 ∨ fec ≠ 3) ∧ (modeLanes m p).all (fun i => (s.lane (ethLane b i)).signal && !s.laneBusy (ethLane b i)) = true then
      let trains := Config.pmdTrains (8 * b + p)
      let s := s.setPort (8 * b + p) { x with
        up := true, lock := true, hiBer := false, fec := if m = 3 then fec else 3, anDone := trains }
      let s := if trains then s.trainTaps ((modeLanes m p).map (ethLane b)) else s
      .next ((s.ownerEvent 0x050A [b, p]).igmpAnswer (8 * b + p))
    else .next s
  | none => .next s

/-- The MAC address of an IPv4 multicast group: 01-00-5E and the group's low 23 bits (PRESUMED from RFC 1112, log 23). -/
def groupMac (ip : Nat) : Nat := 0x01005E000000 + ip % 2 ^ 23

/-- The groups of PTP over UDP/IPv4, 224.0.1.129 and 224.0.0.107 (PRESUMED from IEEE 1588), and 224.0.0.1, where membership
queries go (PRESUMED from IGMP, for R270; log 23). -/
def wardenGroups : List Nat := [0xE0000181, 0xE000006B, 0xE0000001]

/-- The address filter of port `k` (R310): its own address, broadcast, PTP and queries, and the groups of contexts that use it. -/
def State.macTakes (s : State) (k : Nat) (dst : BitVec 48) : Bool :=
  let d := dst.toNat
  d = ((s.net.blk.get {} (k / 8)).mac.toNat + k % 8) % 2 ^ 48 || d = 2 ^ 48 - 1 || wardenGroups.any (fun g => d = groupMac g) ||
    (s.ctxsOf (k / 8)).any fun e => [false, true].any fun b =>
      e.2.portOf b = k % 8 && (match e.2.group b with | some g => d = groupMac g | none => false)

/-- ETHERNET_FRAME_RECEIVE: the FEC's codewords are counted, and the MAC discards by R310. A frame that is not for the warden goes to
the engine: it is given as INGRESS_PACKET, where the rates of R267 and HOLD apply to it, so that no frame counts twice (log 22). A
frame for the warden beyond the rates is refused; a membership query is answered (R270). -/
def execEthernetFrameReceive (b : BlockId) (p : Fin 8) (fr : Frame) (s : State) : Res :=
  let k := 8 * b.val + p.val
  let x := s.port k
  if ¬ x.en ∨ ¬ x.up ∨ ¬ s.alive then .next s
  else
  let x := { x with fecCorr := satAdd x.fecCorr fr.corr, fecUncorr := satAdd x.fecUncorr fr.uncorr }
  let s := s.setPort k x
  if ¬ fr.fcsOk then .next (s.setPort k { x with fcs := satInc x.fcs })
  else if fr.length < 64 ∨ 9216 < fr.length ∨ fr.pause ∨ ¬ s.macTakes k fr.dst then .next s
  else if ¬ fr.forWarden ∧ ¬ fr.query then .next s
  else if s.overRate b p then .next (s.refuseFrame k)
  else
    let s := s.noteFrame k (fr.length + 20)
    if fr.query then .next (s.igmpAnswer k) else .next s

/-- MODE of ETH_PORT_STATUS: 0 for a port that the block's mode does not provide. -/
def State.portMode (s : State) (b p : Nat) : Nat :=
  match s.blkMode b with | some m => if p < modePorts m then m + 1 else 0 | none => 0

def State.ethStatus (s : State) (b p : Nat) : Nat :=
  let x := s.port (8 * b + p)
  pack [(s.portMode b p, 61), (bit x.en, 60), (bit x.up, 59), (bit x.lock, 58), (bit x.hiBer, 57), (bit x.anDone, 56),
    (x.fec.toNat, 54), (x.downs.toNat, 0)]

def State.ethCounts (s : State) (b p : Nat) : Nat :=
  let x := s.port (8 * b + p)
  pack [(x.fecCorr.toNat, 32), (x.fecUncorr.toNat, 16), (x.fcs.toNat, 0)]

/-! ## SDI formats (R312, R315) -/

/-- Frame rates as RATE_NUM / RATE_DEN: 23.98 to 30, and 50 to 60. -/
def slowRates : List (Nat × Nat) := [(24000, 1001), (24, 1), (25, 1), (30000, 1001), (30, 1)]
def fastRates : List (Nat × Nat) := [(50, 1), (60000, 1001), (60, 1)]
def fieldRates : List (Nat × Nat) := [(25, 1), (30000, 1001), (30, 1)]

/-- The frame rates of a format under a standard: none where the standard does not list it. -/
def sdiRates (std w : Nat) : List (Nat × Nat) :=
  let (wd, ht, scan, smp, dp) := fmtOf w
  let plain := smp = 0 ∧ dp = 10
  match std with
  | 1 => if plain ∧ scan = 1 ∧ wd = 720 then (if ht = 576 then [(25, 1)] else if ht = 486 then [(30000, 1001)] else []) else []
  | 2 =>
    if ¬ plain then []
    else if wd = 1280 ∧ ht = 720 ∧ scan = 0 then fastRates
    else if wd = 1920 ∧ ht = 1080 then (if scan = 1 then fieldRates else if scan ≤ 2 then slowRates else [])
    else []
  | 3 =>
    if wd = 1920 ∧ ht = 1080 then
      if plain ∧ scan = 0 then fastRates
      else if (scan = 0 ∨ scan = 2) ∧ ((smp ≠ 0 ∧ (dp = 10 ∨ dp = 12)) ∨ (smp = 0 ∧ dp = 12)) then slowRates
      else []
    else []
  | 5 => if plain ∧ wd = 3840 ∧ ht = 2160 ∧ scan = 0 then slowRates else []
  | 6 => if plain ∧ wd = 3840 ∧ ht = 2160 ∧ scan = 0 then fastRates else []
  | _ => []

/-- A grid's rate is one of a list. -/
def Grid.rateIn (g : Grid) (l : List (Nat × Nat)) : Bool := l.any fun r => g.num * r.2 = g.den * r.1
/-- The rate is a 1/1.001 rate. -/
def Grid.isFrac (g : Grid) : Bool := (slowRates ++ fastRates).any fun r => r.2 = 1001 && g.num * r.2 = g.den * r.1

/-- Serial rate of a standard in Mbit/s, rounded. -/
def sdiMbit (std : Nat) (frac : Bool) : Nat :=
  match std, frac with
  | 1, _ => 270
  | 2, false => 1485 | 2, true => 1484
  | 3, false | 4, false => 2970 | 3, true | 4, true => 2967
  | 5, false => 5940 | 5, true => 5934
  | 6, false => 11880 | 6, true => 11868
  | _, _ => 0

/-- SDI_PORT_SET. -/
def sdiPortSet (s : State) (_ : Nat) (c : Cmd) : Ans :=
  let j := c.f 0 0 5
  let out := c.f 0 5 1 = 1
  let std := c.f 0 8 3
  let fmt := c.arg 1
  let gn := c.f 2 0 4
  let off := c.f 2 32 32
  if (s.sdiCtx j).isSome then .busy s
  else
    let x := s.sdi j
    let y : SdiPort := { x with
      out := out, auto := c.f 0 6 1 = 1, std := BitVec.ofNat 3 std, fmt := BitVec.ofNat 64 fmt, grid := gn, off := off
      carrier := false, detStd := 0, frac := false, has352 := false, st352 := 0, aligned := false, ppm := 0
      cur := none, next := none, line := 0, formed := false, ahead := none, apart := false, seenFmt := none, eav := none }
    if ¬ out then { s := s.setSdi j y }
    else
      match s.tl.grids.get none gn with
      | none => .bad s 2 0
      | some g =>
        if sdiRates std fmt = [] then .bad s 0 8
        else if ¬ g.rateIn (sdiRates std fmt) ∨ (fld fmt 35 2 = 1 ∧ g.switch2 = 0) then .bad s 2 0
        else if 1000000000 * g.den < off * g.num then .bad s 2 32
        else
          let now := s.heathNow (j / 8)
          let est := ((now : Int) - g.phase * nsU - off * nsU).toNat * g.num / (secU * g.den)
          let start := fun f => (g.frameTime f + (off * nsU : Nat)).toNat
          let f := ([est - 1, est, est + 1, est + 2].find? fun f => decide (now ≤ start f)).getD (est + 3)
          let s := s.setSdi j { y with
            detStd := BitVec.ofNat 3 std, frac := g.isFrac, has352 := true
            st352 := Config.payloadId std fmt, cur := some (start f) }
          { s := s.updLane (sdiLane j) fun l => { l with rate := BitVec.ofNat 17 (sdiMbit std g.isFrac) } }

def execSdiPortSet (h : HostId) (s : State) : Res := runCmd h 0x050A anyCmd sdiPortSet s

/-! ## SDI inputs (R295, R313) -/

/-- SDI_INPUT_LOCK: the framer locks to a signal: of the fixed standard, or of any in automatic mode. A change of standard there
clears CARRIER first: the framer relocks, and locks when the row comes again (R313). CARRIER means a supported signal, which level B
is not (R312, R318). -/
def execSdiInputLock (j : SdiId) (std : BitVec 3) (frac : Bool) (s : State) : Res :=
  let x := s.sdi j
  if s.netUp ∧ s.laneRails ∧ ¬ x.out ∧ std ≠ 0 ∧ std ≠ 7 ∧ (x.auto ∨ x.std = std) then
    let changed := x.detStd ≠ 0 ∧ (x.detStd ≠ std ∨ x.frac ≠ frac)
    if x.auto ∧ x.aligned ∧ x.detStd ≠ std then .next (s.setSdi j { x with carrier := false, aligned := false })
    else
    let s := s.setSdi j { x with
      carrier := decide (std ≠ 4), aligned := true, detStd := std, frac := frac
      reph := if changed then satInc x.reph else x.reph, seenFmt := if changed then none else x.seenFmt }
    .next (s.updLane (sdiLane j) fun l => { l with signal := true, rate := BitVec.ofNat 17 (sdiMbit std.toNat frac) })
  else .next s

/-- The ST 291 packets of a line: records of the frame that is open, else of the one to begin (R295). -/
def State.sdiAnc (s : State) (c : Nat) (ts : BitVec 32) (l : List AncPkt) : State :=
  if (s.ctx c).ringSize = 0 then s
  else
    each l (fun a s =>
      let (s, ok) := s.putAnc c a
      if (s.ctx c).frs.any fun f => f.ts = ts && !f.done then
        s.updFrame c ts fun f => { f with recs := f.recs + 1, incomplete := f.incomplete || !ok }
      else s.updCtx c fun x => { x with preRecs := x.preRecs + 1, nextInc := x.nextInc || !ok }) s

/-- A line for an SDI context: its number follows M. An active line of another format, or before the frame start of R271, is
discarded and counted; what comes with a discarded line goes with it. -/
def State.sdiToCtx (s : State) (c : Nat) (std : BitVec 3) (ln : SdiLine) : State :=
  let x := s.ctx c
  if ¬ x.runs ∨ x.egress then s
  else
    let fmt := BitVec.ofNat 64 (fld ln.fmt.toNat 28 36 * 2 ^ 28)
    if std = 4 ∨ fld ln.fmt.toNat 28 36 ≠ x.p 0x38 28 36 then
      let s := if ln.row.isSome then s.invalidPkt c else s
      if x.fmtBad = some fmt then s
      else (s.updCtx c fun x => { x with fmtBad := some fmt }).event [x.creator] 0x0507 [c, (ln.st352.getD 0).toNat]
    else
      let s := s.updCtx c fun x => { x with fmtBad := none }
      let first := ln.row = some 0 && ln.field = 0
      if x.st = .restarting ∧ ¬ first then (if ln.row.isSome then s.invalidPkt c else s)
      else
        let num := seqAdd x.mPt 1
        let ts := BitVec.ofNat 32 (x.frames.toNat + (if first then 1 else 0))
        let body : Body := match ln.row with
          | some r => .video [(r, ln.field, 0, ln.picture)]
          | none => .video []
        let k : Packet := {
          ipUdp := false, vlan := 0, dstIp := 0, dstUdp := 0, srcIp := 0, srcUdp := 0, version := 2, pt := 0, seq := 0, ext := 0
          ts := ts, marker := ln.last, ssrc := 0, body := body }
        let s := s.updCtx c fun x => { x with st := .active }
        -- packets of the line ahead of its end: a last line that ends its frame still counts its own records
        let s := if first then s else s.sdiAnc c ts ln.anc
        let s := if ln.row.isSome then s.acceptPkt c num k else s
        if first then s.sdiAnc c ts ln.anc else s

/-- SDI_INPUT_LINE: the line with the time of its EAV; another format than the last line's is a change of detected format (R318). A
context takes no lines while its lane is under test, nor before the next frame start then (R303). -/
def execSdiInputLine (j : SdiId) (ln : SdiLine) (s : State) : Res :=
  let x := s.sdi j
  if ¬ s.netUp ∨ x.out ∨ ¬ x.aligned then .next s
  else
    let fmt := fld ln.fmt.toNat 28 36
    let changed := x.seenFmt.any (· ≠ fmt)
    let apart := x.apart && !(ln.row = some 0 && ln.field = 0 && !s.laneBusy (sdiLane j))
    let s := s.setSdi j { x with
      apart := apart, seenFmt := some fmt, eav := some (s.heathNow (j / 8)), reph := if changed then satInc x.reph else x.reph
      crc := if ln.crcOk ∨ x.detStd = 1 then x.crc else satInc x.crc, trs := if ln.trsOk then x.trs else satInc x.trs
      anc := satAdd x.anc ln.badAnc, ppm := ln.ppm
      has352 := x.has352 || ln.st352.isSome, st352 := ln.st352.getD x.st352 }
    match s.sdiCtx j with
    | some c => if s.laneBusy (sdiLane j) ∨ apart then .next s else .next (s.sdiToCtx c x.detStd ln)
    | none => .next s

/-! ## SDI outputs (R295, R314, R315, R317) -/

/-- The records at the ring's place that name this line; each leaves the ring, and one that does not fit its blanking,
whose room no rule gives, is dropped and counted (a free value, log 23). -/
def State.takeAnc (s : State) (c j line : Nat) : Nat → List AncPkt → State × List AncPkt
  | 0, acc => (s, acc)
  | fuel + 1, acc =>
    let x := s.ctx c
    if x.ringSize ≤ x.ring then (s, acc)
    else
      match s.flowGet c x.ringHandle (64 * x.ring) 8 with
      | (t, some hd) =>
        let v := leNat hd
        if fld v 0 11 ≠ line ∨ v = 0 then (t, acc)
        else
          let (t, d) := t.ancRecord c x.ringHandle
          let (w, t) := t.draw
          if w.getLsbD 0 then State.takeAnc (t.updSdi j fun y => { y with anc := satInc y.anc }) c j line fuel acc
          else State.takeAnc t c j line fuel (acc ++ d.toList)
      | (t, none) => (t, acc)

/-- The picture of a line: from the source buffer of a running egress context, filled when its read fails; black otherwise. -/
def State.sdiPicture (s : State) (c : Option Nat) (f r : Nat) : State × Option (List Byte) :=
  match c with
  | some c =>
    let x := s.ctx c
    if x.st ≠ .active ∨ ¬ x.egress then (s, none)
    else
      match s.flowGet c x.src (x.frameLine f r * x.pitch) x.lineBytes with
      | (s, some d) => (s, some (x.unstore d))
      | (s, none) => (s, some (x.fillOct x.lineOct))
  | none => (s, none)

/-- The ST 352 packet of a line: its payload identifier, on the lines that ST 352 gives for the format (R314). -/
def SdiPort.payloadAt (x : SdiPort) (line : Nat) : Option (BitVec 32) :=
  let (_, ht, scan, _, _) := fmtOf x.fmt.toNat
  let at_ := if ht = 576 then [9, 322] else if ht = 486 then [13, 276] else if ht = 1080 ∧ scan = 1 then [10, 572] else [10]
  if line ∈ at_ then some x.st352 else none

/-- The start of the next frame as the grid places it: the first that leaves the blanking its 2 µs after the last active
line ends at `t`. -/
def nextSdi (g : Grid) (off t lead : Nat) : Nat :=
  let start := fun f : Nat => (g.frameTime f + (off * nsU : Nat)).toNat
  let est := ((t : Int) - g.phase * nsU - off * nsU).toNat * g.num / (secU * g.den)
  start (([est - 1, est, est + 1, est + 2].find? fun f =>
    decide (t ≤ start f ∧ t + 2 * formLead ≤ start f + lead)).getD (est + 3))

/-- One unit interval of the output (R317). -/
def SdiPort.ui (x : SdiPort) : Nat := secU / (sdiMbit x.detStd.toNat x.frac * 1000000)

/-- Where the grid puts the frame after the one that began at `start`, of which `n` lines are sent, and whether that is a rephase:
more than one unit interval from where the output would place it itself (R317). -/
def SdiPort.after (x : SdiPort) (g : Grid) (start n : Nat) : Nat × Bool :=
  let w := x.fmt.toNat
  let own := start + secU * g.den / g.num
  let t := nextSdi g x.off (sdiAt g w start n) (sdiAt g w 0 ((sdiActive w).1 - 1))
  (t, decide (own + x.ui < t ∨ t + x.ui < own))

/-- A frame that starts at `t` is on its grid time. -/
def SdiPort.onGrid (x : SdiPort) (g : Grid) (t : Nat) : Bool :=
  let est := ((t : Int) - g.phase * nsU - x.off * nsU).toNat * g.num / (secU * g.den)
  [est - 1, est, est + 1, est + 2].any fun f =>
    let u := (g.frameTime f + (x.off * nsU : Nat)).toNat
    decide (t ≤ u + x.ui ∧ u ≤ t + x.ui)

/-- ALIGNED: an output's is clear from the need of a rephase, which a step or a redefined grid makes at once (R317). -/
def State.sdiAligned (s : State) (j : Nat) : Bool :=
  let x := s.sdi j
  match x.out, x.cur, x.next, s.tl.grids.get none x.grid with
  | true, some start, none, some g => x.aligned && !(x.after g start (max x.line (sdiActive x.fmt.toNat).2)).2
  | true, _, some t, some g => x.aligned && x.onGrid g t
  | _, _, _, _ => x.aligned

/-- When the next line of an output leaves, and its number: the frame ends at its own length, or where a rephase puts the next. -/
def SdiPort.coming (x : SdiPort) (g : Grid) (cur : Nat) : Option (Nat × Nat) :=
  let w := x.fmt.toNat
  let own := if x.line < sdiLines w then some (sdiAt g w cur x.line, x.line + 1) else none
  match x.next, own with
  | some t, some (u, n) => some (if t ≤ u then (t, 1) else (u, n))
  | some t, none => some (t, 1)
  | none, own => own

/-- The context whose content an output sends in line `line`: none under a test, nor in the rest of the frame in which it ends. -/
def State.sdiSource (s : State) (j line : Nat) : Option Nat :=
  if s.laneBusy (sdiLane j) ∨ ((s.sdi j).apart ∧ line ≠ 1) then none else s.sdiCtx j

/-- The ring is read for the next line, 2 µs before it (R314); a frame whose first active line that is begins to form (R295). -/
def State.sdiAhead (s : State) (j : Nat) : State :=
  let x := s.sdi j
  match x.cur, s.tl.grids.get none x.grid with
  | some cur, some g =>
    match x.coming g cur with
    | some (t, line) =>
      if ¬ s.sdiRuns j ∨ x.ahead.isSome ∨ s.heathNow (j / 8) + formLead < t then s
      else
        let s := s.sdiBegin j
        let (s, anc) : State × List AncPkt := match s.sdiSource j line with
          | some c => if (s.ctx c).st = .active ∧ (s.ctx c).egress then s.takeAnc c j line 64 [] else (s, [])
          | none => (s, [])
        s.updSdi j fun y => { y with ahead := some anc }
    | none => s
  | _, _ => s

/-- A TRS word of the field, the vertical blanking and the horizontal bit (PRESUMED from ST 274 and ST 292-1, log 23). -/
def trsWord (f v h : Bool) : BitVec 10 :=
  BitVec.ofNat 10 (pack [(1, 9), (bit f, 8), (bit v, 7), (bit h, 6), (bit (v != h), 5), (bit (f != h), 4), (bit (f != v), 3),
    (bit (f != (v != h)), 2)])

/-- The field bit of a line: set in the second field (PRESUMED from the standards of R312, log 23). -/
def sdiField (w line : Nat) : Bool :=
  let (_, _, scan, _, _) := fmtOf w
  scan ≠ 0 && (match sdiLines w with
    | 525 => decide (266 ≤ line ∨ line ≤ 3)
    | 625 => decide (313 ≤ line)
    | _ => decide (564 ≤ line))

/-- A line of the output as the framer forms it (R314). -/
def SdiPort.sent (x : SdiPort) (line : Nat) (pic : Option (List Byte)) (anc : List AncPkt) : SdiOut :=
  let w := x.fmt.toNat
  let f := sdiField w line
  let v := (sdiRow w line).isNone
  let o : SdiOut := {
    line := line, eav := [0x3FF, 0, 0, trsWord f v true], sav := [0x3FF, 0, 0, trsWord f v false]
    picture := pic, anc := anc, payloadId := x.payloadAt line, crc := none }
  if x.detStd = 1 then o else { o with crc := some (Config.lineCrc o) }

/-- SDI_OUTPUT_LINE: the next line leaves at its time. -/
def execSdiOutputLine (j : SdiId) (s : State) : Res :=
  let x := s.sdi j
  let w := x.fmt.toNat
  match x.cur, s.tl.grids.get none x.grid with
  | some cur, some g =>
    match x.coming g cur with
    | none => .next s
    | some (t, line) =>
      if ¬ s.sdiRuns j ∨ s.heathNow (j / 8) < t then .next s
      else
        let s := s.sdiAhead j
        let x := s.sdi j
        let anc := x.ahead.getD []
        let busy := s.laneBusy (sdiLane j)
        let x := if line = 1 then { x with
            cur := some t, next := none, aligned := x.onGrid g t, formed := false, apart := x.apart && busy } else x
        let start := x.cur.getD cur
        let s := (s.setSdi j { x with line := line, ahead := none }).sdiBegin j
        let c := s.sdiSource j line
        let (s, pic) : State × Option (List Byte) := match sdiRow w line with | some (f, r) => s.sdiPicture c f r | none => (s, none)
        let s := if busy then s else s.emit (.sdi j (x.sent line pic anc))
        let count := fun (s : State) (f : Ctx → Ctx) => match c with
          | some c => if pic.isSome then s.updCtx c f else s
          | none => s
        let s := count s fun y => { y with accepted := satInc y.accepted }
        let last := (sdiActive w).2
        let s := if line = last then count s fun y => { y with done := satInc y.done } else s
        -- the next frame is placed once the last active line has left, and anew after a step in the blanking
        if line < last ∨ (s.sdi j).next.isSome then .next s
        else
          let (t, moved) := x.after g start line
          let s := s.updSdi j fun y => { y with
            next := some t, aligned := if moved then false else y.aligned, reph := if moved then satInc y.reph else y.reph }
          .next (if moved then s.ownerEvent 0x050B [j] else s)
  | _, _ => .next s

/-- An SDI output starts again at the next frame of its grid: its pair has become ready, its rails good, or HOLD has ended. -/
def State.sdiRestart (s : State) (j : Nat) : State :=
  let x := s.sdi j
  match x.cur, s.tl.grids.get none x.grid with
  | some _, some g =>
    let w := x.fmt.toNat
    let lead := secU * g.den * ((sdiActive w).1 - 1) / (g.num * sdiLines w)
    s.setSdi j { x with cur := some (nextSdi g x.off (s.heathNow (j / 8)) lead), next := none, line := 0, formed := false, ahead := none }
  | _, _ => s

/-! ## Status (R318) -/

def State.sdiStatus (s : State) (j : Nat) : Nat :=
  let x := s.sdi j
  pack [(bit x.out, 63), (bit (if x.out then s.sdiRuns j else x.carrier), 62), (x.detStd.toNat, 59), (bit x.frac, 58), (bit x.has352, 57), (bit (s.sdiAligned j), 56),
    (x.st352.toNat, 16), (if x.out then 0 else x.ppm.toNat, 0)]

def State.sdiCounts (s : State) (j : Nat) : Nat :=
  let x := s.sdi j
  pack [(x.crc.toNat, 48), (x.trs.toNat, 32), (x.anc.toNat, 16), (x.reph.toNat, 0)]

end Sys2Proof.Machine
end

