-- ==== Sys2Proof/Machine/Power.lean ====
section
/-! DEFINITION. Rails, resets, start-up, LOCKDOWN (spec/20_power_resets_modes.md, spec/21_worlds_and_lifecycle.md). -/

namespace Sys2Proof.Machine

/-! ## Meadows together -/

/-- Change every meadow. -/
def State.allMea (s : State) (f : Meadow → Meadow) : State := each (List.range 192) (fun m s => s.updMea m f) s

/-- Flip-flops, wire and boundary registers and trowel registers at the values they hold under the global hold: SEED and
zero (R54, R74, R84, R133). -/
def Meadow.seeded (x : Meadow) : Meadow :=
  let p := x.live.pers
  { x with
    ffs := ⟨(p.cells.ents.filter fun e => e.2.seed ≠ (false, false)).map fun e => (e.1, e.2.seed)⟩
    wires := {}, xregs := {}, trowels := {} }

/-- Input registers at zero, output registers at OINIT and OEINIT, delay taps at their initial values (R476, R477). -/
def IoCfg.initial (c : IoCfg) : IoReg := { o0 := c.oinit, o1 := c.oinit, oe := c.oeinit, itap := c.idly, otap := c.odly }

/-- The pins of a meadow: device pin and pin number. -/
def meadowPins (m : Nat) : List (Nat × Nat) := (List.range 48).filterMap fun p => (meadowPin m p).map fun k => (k, p)

/-- The I/O registers of a meadow take their initial values of the live plane (R476). -/
def State.initPins (s : State) (m : Nat) : State :=
  each (meadowPins m) (fun k s => s.setPin k.1 { s.pin k.1 with reg := ((s.mea m).live.pers.ios.get {} k.2).initial }) s

/-! ## LOCKDOWN (R449, R450, R506) -/

/-- The fuse fields that a transition programs, of those that `done` names (R445, R446). -/
def Secure.programFields (x : Secure) (new : Life) (b : List Byte) (done : Nat → Bool) : Secure :=
  let w40 := leNat ((b.drop 0x40).take 8)
  let w48 := leNat ((b.drop 0x48).take 8)
  match new with
  | .opened => { x with
      ownerHash := if done 0 then (b.drop 0x10).take 0x30 else x.ownerHash
      subsys := if done 1 then BitVec.ofNat 32 (w40 / 2 ^ 32) else x.subsys
      keySrc := if done 2 then decide (fld w40 8 1 = 1) else x.keySrc }
  | .sealed => { x with
      ownerFuse := if done 0 then BitVec.ofNat 3 w48 else x.ownerFuse
      tamperEn := if done 1 then BitVec.ofNat 4 (fld w48 8 4) else x.tamperEn }
  | _ => x

/-- A loss of power, a device reset or an alarm ends a lifecycle transition before its word is complete: the fields already
programmed, which no rule counts, stay so (R447; free values, log 30). -/
def State.fuseCut (s : State) : State :=
  match s.sec.adv with
  | some (_, new, b) =>
    if s.mem.wiping then s
    else
      let (v, s) := s.draw
      { s with sec := { s.sec.programFields new b v.getLsbD with adv := none } }
  | none => s

/-- What LOCKDOWN does at once in the always-on and I/O domains: the mode and LOCK_CAUSE, the warden's scratchpad, the key
RAM and the loader's key copy, lane transmitters other than PCIe, SDI outputs, the chain port, CFG_DONE, CORE_RET_REQ. -/
def State.lockNow (s : State) (cause : BitVec 8) : State :=
  { s with
    pwr := { s.pwr with mode := .lockdown, lockCause := cause, cfgDone := false, retReq := false, wakes := [], wakeCmds := [], wakeN := false }
    sec := { s.sec with keyRam := none, chal := none, verifying := none, adv := none }
    dbg.key := none
    ldr := { s.ldr with keyCopy := false, forward := false }
    mem := { s.mem with pad := s.mem.pad.clear (padAddr 4 0) 2097152, padBad := s.mem.padBad.drop fun k => k / 262144 = 4, padOff := true }
    net.lane := ⟨s.net.lane.ents.filter fun e => (lanePcie e.1).isSome⟩
    net.sdi := {} }

/-- A meadow with its planes cleared and its gate closed; its worlds and its column stay. -/
def Meadow.cleared (x : Meadow) : Meadow := { world := x.world, screedWorld := x.screedWorld, col := x.col }

/-- MODE_CHANGED in every event ring, vector 1 to every PCIe host whatever its mask, SMBALERT_N low (R327, R450). -/
def State.lockReport (s : State) (old : Nat) : State :=
  let s := s.flushBoot
  let s := each s.hosts (fun h s =>
    let m := (s.mb h).irqMask
    let s := (s.updMb h fun x => { x with irqMask := x.irqMask ||| 2 }).postEvent h 0x0101 (modeDetail old 5 0) s.tl.now
    (s.updMb h fun x => { x with irqMask := m }).msi h 1) s
  { s with wrd.alertForced := true }

/-- The world attributes of the stipple rows alone: LOCKDOWN changes none (R437). -/
def worldsOnly (t : Tab Row) : Tab Row := ⟨(t.ents.filter fun e => e.2.world).map fun e => (e.1, { world := true })⟩

/-- The core-domain steps: the scratchpads, the scrim key tables, the hold and the gates, the planes, and with them all
queue, task, cue and flow state and every unfinished command (R20, R450, R452). Then the report, and timeline and warden stop. -/
def State.lockCore (s : State) (old : Nat) : State :=
  let s := each (List.range 256) (fun r s => s.updRegion r fun x => { x with zeroed := true, epoch := 0, key := 0, stale := true, fresh := [], roll := none, roll2 := none }) s
  let s := s.allMea Meadow.cleared
  let s : State := { s with
    mem := { s.mem with pad := {}, padBad := {}, wiping := false, padOff := true }
    pwr := { s.pwr with ghold := true, fabClk := false, entering := none, exiting := false, lockPend := false }
    que := { world := s.que.world }, stp := { row := worldsOnly s.stp.row }, tl.cues := {}, net.ctx := {}
    ldr := { s.ldr with job := none, queue := [], readback := [] }
    wrd.bg := [] }
  let s := each s.io.pin.keys (fun k s => s.setPin k { s.pin k with reg := {} }) s
  let s := each (List.range 5) (fun h s => s.updMb h fun x => { x with accepted := [], running := none, waiting := [], heldBell := false }) s
  s.lockReport old

/-- LOCKDOWN_ENTRY. In HOLD, its entry or its exit the core-domain steps wait for VCC_CORE (R506). -/
def State.lockdown (s : State) (cause : BitVec 8) : State :=
  if ¬ s.alive then s
  else
    let old := s.pwr.mode.code
    let t := s.fuseCut.lockNow cause
    if s.pwr.mode = .hold ∨ s.pwr.entering.isSome then { t with pwr.lockPend := true } else t.lockCore old

/-- VCC_CORE is good. -/
def State.coreGood (s : State) : Bool := !s.pwr.coreLow && !s.pwr.down.contains .core

/-- LOCKDOWN_CORE_STEPS. An alarm during HOLD entry came in RUN, one in HOLD or during its exit in HOLD. -/
def execLockdownCoreSteps (s : State) : Res :=
  if s.pwr.lockPend ∧ s.coreGood then .next (s.lockCore (if s.pwr.entering.isSome then 2 else 3)) else .next s

/-! ## Tamper alarms and fatal failures (R448, R449, R398) -/

/-- A tamper source of TAMPER_EN, in the lifecycle states that arm them. -/
def State.tamper (s : State) (bit : Nat) : State :=
  if (s.sec.life = .sealed ∨ s.sec.life = .returned) ∧ s.sec.tamperEn.getLsbD bit then s.lockdown 1 else s

/-- TAMPER_N low for 10 us. -/
def execTamperNAlarm (s : State) : Res := .next (s.tamper 0)

/-- A supply glitch on VCC_CORE or VCC_AON. -/
def execSupplyGlitchAlarm (_core : Bool) (s : State) : Res := .next (s.tamper 1)

/-- A die sensor above 125 degrees. -/
def execDieOvertempAlarm (_hh : HeathId) (s : State) : Res := .next (s.tamper 2)

/-- The fast oscillator has stopped. -/
def execFastOscStop (s : State) : Res := .next (s.lockdown 4)

/-- HEDGEROW_LINK_RETIRE: after 16 retries in a row; the loss of an edge's last link is fatal (R204). -/
def execHedgerowLinkRetire (edge : Fin 3) (n : Fin 16) (s : State) : Res :=
  let k := 16 * edge.val + n.val
  let x : HLink := s.hg.link.get {} k
  if x.retired ∨ x.retries < 16 ∨ ¬ s.alive then .next s
  else
    let s := { s with hg.link := s.hg.link.set {} k { x with retired := true } }
    let s := s.ownerEvent 0x0104 [edge.val, n.val]
    if (List.range 16).all fun i => (s.hg.link.get {} (16 * edge.val + i)).retired then .next (s.lockdown 3) else .next s

/-! ## Resets (R422, R423, R426) -/

/-- A fresh key in every region (R249). -/
def freshRegions (c : Scrim) : Scrim :=
  { region := (List.range 256).foldl (fun t r => t.set {} r { key := (c.region.get {} r).key + 1 }) {} }

/-- A loss of power or a device reset during a user flash operation leaves its page undefined: free contents (R484). -/
def State.flashCut (s : State) : State :=
  match s.io.ufOp with
  | some (_, p) =>
    let (d, s) := s.drawBytes 256
    { s with io.uf := s.io.uf.writeN (2048 * p.toNat) d }
  | none => s

/-- What survives a power-on reset and a device reset alike: the fuses and keys, the flashes, the debug domain, the rails,
the model's own fields. A DBG_ACCESS operation in progress ends with TIMEOUT (R471). -/
def State.afterReset (s : State) : State :=
  let s := s.flashCut.fuseCut
  { pending := s.pending, free := s.free, out := s.out
    scrim := freshRegions s.scrim
    ldr := { flash0 := { s.ldr.flash0 with switched := false }, flash1 := { s.ldr.flash1 with switched := false } }
    pwr := { straps := s.pwr.straps, pins := s.pwr.pins, owner := s.pwr.owner, down := s.pwr.down, coreLow := s.pwr.coreLow }
    sec := { s.sec with chal := none, verifying := none, unlocked := false, adv := none }
    dbg := (s.dbgEnd hsTimeout 0).dbg
    io := { uf := s.io.uf, ufErases := s.io.ufErases } }

/-- A lane of a PCIe quad across device reset: it belongs to the always-on domain (R419); its counter is cleared (R318). -/
def State.keptLanes (s : State) : Tab Lane :=
  each ((List.range 96).filter fun l => (lanePcie l).isSome) (fun l t => t.set {} l { s.lane l with los := 0, jobs := [] }) {}

/-- What the clock monitor holds on sources that no reset domain starts anew: oscillators, crystal inputs, lane references. -/
def keptSources (t : Tab Bool) : Tab Bool := ⟨t.ents.filter fun e => rng e.1 1 4 || rng e.1 0x10 0x1B⟩

/-- Device reset: the timeline count, the PCIe links with their lanes, configuration space, MSI-X tables and pending-bit arrays,
the straps, and the clock monitor of the always-on domain (log 29) are kept as well. -/
def State.deviceReset (s : State) (cause : BitVec 8) : State :=
  let t := s.afterReset
  { t with
    tl := { now := s.tl.now, skew := s.tl.skew }
    clk := { ready := keptSources s.clk.ready, dead := keptSources s.clk.dead, gone := keptSources s.clk.gone }
    net := { lane := s.keptLanes }
    pcie := s.pcie
    pwr := { t.pwr with cause := cause }
    wrd := { boot := some s.pwr.mode.code } }

/-- Every source of device reset is ignored in LOCKDOWN (R426); one that falls due during HOLD entry waits for HOLD (R429). -/
def State.resetBy (s : State) (cause : BitVec 8) : State :=
  if ¬ s.alive then s
  else if s.pwr.entering.isSome then { s with pwr.lateReset := some (s.pwr.lateReset.getD cause) }
  else s.deviceReset cause

/-- The owner host: the strap in BLANK and OPEN, the fuse field otherwise (R438). -/
def Secure.ownerOf (x : Secure) (st : Straps) : Nat :=
  match x.fused.getD x.life with
  | .blank | .opened => if st.owner.toNat < 4 then st.owner.toNat else 0
  | _ => if x.ownerFuse.toNat < 4 then x.ownerFuse.toNat else 0

/-- Power-on reset: straps and owner are taken anew. -/
def State.powerOn (s : State) : State :=
  let t := s.afterReset
  { t with
    pwr := { t.pwr with straps := s.pwr.pins, owner := s.sec.ownerOf s.pwr.pins, cause := 1 }
    sec := { t.sec with fails := 0, failRun := 0 }
    wrd := { boot := some 0 } }

/-- POWER_ON_RESET: 200 us after always-on power good. -/
def execPowerOnReset (s : State) : Res :=
  if s.pwr.down.contains .aon ∨ s.pwr.down.contains .aux then .next s else .next s.powerOn

/-- A full load, or another attempt of it, starts: every memory column is ON, CFG_ERR_N is released (R356, R365). -/
def State.startLoad (s : State) (j : Load) : State :=
  { s.allMea fun x => { x with col := .on } with ldr.job := some j, pwr.cfgErrN := false }

/-- Step 7: the full load from the source that CFG_SRC names; 0b01 waits for CONFIG_LOAD (R356). -/
def State.startUpLoad (s : State) : State :=
  let src := s.pwr.straps.cfgSrc
  let s : State := { s with pwr.loadWait := false }
  if src = 1 then s else s.startLoad { src := if src = 2 then .chain else .flash }

/-- Reset of the debug domain. A boundary-scan test ends with it, and with the test the wait of a load (R455). -/
def State.dbgReset (s : State) : State :=
  let s : State := { s with dbg := {} }
  if s.pwr.loadWait ∧ s.pwr.mode = .load then s.startUpLoad else s

/-- DEBUG_POWER_ON_RESET: the debug domain alone. -/
def execDebugPowerOnReset (s : State) : Res :=
  if s.pwr.down.contains .dbg then .next s else .next s.dbgReset

/-- DELAYED_DEVICE_RESET: 1 ms after the response of DEVICE_RESET or LIFECYCLE_ADVANCE. -/
def execDelayedDeviceReset (s : State) : Res := if s.wrd.resetDue then .next (s.resetBy 3) else .next s

/-- CFG_PROG_N low for 1 us. -/
def execCfgProgNLow (s : State) : Res := .next (s.resetBy 2)

/-- WARDEN_WATCHDOG_EXPIRY: frozen in SERVICE and while a debugger holds the warden halted (R425). -/
def execWardenWatchdogExpiry (s : State) : Res :=
  if s.pwr.mode = .service ∨ s.wrd.halted then .next s else .next (s.resetBy 5)

/-! ## Rails (R418-R421, R430, R473) -/

/-- Nominal VCCIO of an I/O standard, in mV; none for a pin that fits any level (LVDS receives at any; unused). -/
def stdMv (std : BitVec 4) : Option Nat :=
  match std.toNat with
  | 1 => some 1800
  | 2 | 5 | 7 => some 1500
  | 3 | 6 | 9 | 10 => some 1200
  | 4 => some 1000
  | 8 => some 1350
  | _ => none

/-- The measured level lies within 5 % of a standard's (R490). -/
def stdFits (std : BitVec 4) (mv : Nat) : Bool :=
  match stdMv std with | some n => 95 * n ≤ 100 * mv && 100 * mv ≤ 105 * n | none => true

/-- A pin's standard matches a level. An LVDS pair receives at any level and transmits at 1.8 V: it matches another one when its
output is not enabled (R472; log 32). -/
def State.pinFits (s : State) (k mv : Nat) : Bool :=
  match s.pairP k with
  | some p => (s.cellOut p).isNone || stdFits 1 mv
  | none => stdFits (s.pinCfg k).std mv

/-- A bank measures its VCCIO: the level is the board's, a free value (log 9). Pins that do not match are faulted, with one
event per bank (R473). -/
def State.measureVccio (s : State) (b : Nat) : State :=
  let (v, s) := s.draw
  let mv : BitVec 12 := v.setWidth 12
  let s := s.setBank b { s.bank b with mv := mv }
  let s := each (List.range 48) (fun p s =>
    let k := 48 * b + p
    let x := s.pin k
    if s.pinFits k mv.toNat then (if x.fault = some .vccio then s.setPin k { x with fault := none } else s)
    else s.setPin k { x with fault := some .vccio }) s
  if (List.range 48).any fun p => (s.pin (48 * b + p)).fault = some .vccio then s.ownerEvent 0x0A03 [b] else s

/-- VBAT falls: the key RAM is erased (R360). -/
def State.vbatLost (s : State) : State := { s with sec := { s.sec with vbat := false, keyRam := none } }

/-- VBAT_LOW. -/
def execVbatLow (s : State) : Res := .next s.vbatLost

/-- RAIL_GOOD: a rail is declared good. In HOLD, VCC_CORE is declared good again only after CORE_RET_REQ has gone low (R430). -/
def execRailGood (r : RailId) (s : State) : Res :=
  let was := s.pwr.down.contains r
  let s := { s with pwr.down := s.pwr.down.filter (· ≠ r) }
  match r with
  | .core => .next (if s.pwr.retReq then s else { s with pwr.coreLow := false })
  | .vbat => .next { s with sec.vbat := true }
  | .vccio b => .next (if was ∧ s.alive then (s.measureVccio b).settleAll else s)
  | .lane | .laneTx => .next (if was ∧ s.laneRails then each (List.range 32) (fun j s => s.sdiRestart j) s else s)
  | _ => .next s

/-- Reads of a host's link that still wait: their completions can no longer be returned. Posted writes stay (R322). -/
def State.dropReads (s : State) (n : Nat) : State :=
  let mine := fun q : HeldReq =>
    decide (q.who.kind = 0 ∧ q.who.index = n) && (match q.what with | .bar2Read _ => true | _ => false)
  { s with hg.held := s.hg.held.filter fun q => !mine q }

/-- A PCIe link goes down with its lanes' rails or its own reset: only the PCIe layers and the configuration space (R322). One whose
training no start-up has enabled yet stays absent (R434). -/
def State.linkReset (s : State) (n : Nat) : State :=
  if ¬ s.hosts.contains n then s
  else
    let x := s.link n
    (s.dropReads n).setLink n {
      st := if x.st = 0 then 0 else 4, downs := if 2 ≤ x.st.toNat ∧ x.st.toNat ≤ 3 then satInc x.downs else x.downs, msix := x.msix }

/-- RAIL_FAIL: the effect of its row of R421. One whose failure resets ends a LOCKDOWN entry that waits as power loss does (R506;
log 24). -/
def execRailFail (r : RailId) (s : State) : Res :=
  if s.pwr.down.contains r then .next s
  else
    let s := { s with pwr.down := r :: s.pwr.down }
    match r with
    | .aon | .aux => .next s.powerOn
    | .core | .hbm | .hbmq | .vpp => .next (if s.pwr.lockPend then s.powerOn else s.resetBy 4)
    | .lane | .laneTx =>
      let s := each (List.range 96) (fun l s =>
        if (lanePcie l).isSome then s else (s.updLane l fun x => { x with st := .failed }).loseSignal l true) s
      .next (each (List.range 4) (fun n s => s.linkReset n) s)
    | .dbg => .next (s.dbgReset)
    | .vccio b => .next (s.ownerEvent 0x0A03 [b.val]).settleAll
    | .vbat => .next s.vbatLost

/-! ## Start-up (R434, R105, R239, R305) -/

/-- Every rail that the device's power good waits for is good (R420). -/
def State.powerGood (s : State) : Bool :=
  s.coreGood && !(s.pwr.down.any fun r => r = .aon || r = .aux || r = .lane || r = .laneTx || r = .hbm || r = .hbmq || r = .vpp)

/-- SCRATCHPAD_WIPE_DONE: a non-zero word is fatal. In BOOT step 1 ends: the warden leaves ROM and writes the reset's
MODE_CHANGED, then reads the fuses, whose lifecycle word must be a defined one, and samples CFG_SRC and PRECFG_PULL (step 2). -/
def execScratchpadWipeDone (nonZero : Bool) (s : State) : Res :=
  if ¬ s.mem.wiping ∨ ¬ s.alive ∨ (s.pwr.mode = .boot ∧ ¬ s.powerGood) then .next s
  else if nonZero then .next (s.lockdown 2)
  else if s.pwr.mode = .boot ∧ s.sec.badWord then .next (({ s with mem := { s.mem with wiping := false } } : State).lockdown 4)
  else
    let s := { s with mem := { s.mem with wiping := false } }
    if s.pwr.mode = .boot then
      let s := s.flushBoot
      let s := each (List.range 4) (fun n s =>
        if s.hosts.contains n ∧ (s.link n).st = 0 then s.setLink n { s.link n with st := 1 } else s) s
      .next { s with
        sec := { s.sec with life := s.sec.fused.getD s.sec.life, fused := none }
        pwr.straps := { s.pwr.straps with cfgSrc := s.pwr.pins.cfgSrc, pull := s.pwr.pins.pull } }
    else .next s

/-- A wipe of all five scratchpads begins (R104). -/
def State.startWipe (s : State) : State := { s with mem := { s.mem with pad := {}, padBad := {}, wiping := true } }

/-- DIE_EDGE_TRAINED: the edges train in order, each numbering the next heath and aligning its replica (R25, R434). -/
def execDieEdgeTrained (edge : Fin 3) (anyLink : Bool) (s : State) : Res :=
  if s.pwr.mode ≠ .boot ∨ s.mem.wiping ∨ ¬ s.clk.locked ∨ s.pwr.edges.length ≠ edge.val then .next s
  else if ¬ anyLink then .next (s.lockdown 3)
  else .next { s with pwr.edges := s.pwr.edges ++ [edge.val], tl.skew := s.tl.skew.set 0 (edge.val + 1) 0 }

/-- HBM_TRAINING_DONE: step 6 ends, and with it BOOT. A load waits while a boundary-scan test is current (R455). -/
def execHbmTrainingDone (failed : List ChanId) (spares : List (ChanId × BitVec 8)) (s : State) : Res :=
  if s.pwr.mode ≠ .boot ∨ s.pwr.edges.length ≠ 3 then .next s
  else
    let s := each (List.range 32) (fun p s =>
      let sp := match spares.find? fun e => e.1.val = p with | some e => e.2 | none => 0
      let bad := failed.any fun f => f.val = p
      let s := s.updPch p fun x => { x with st := if bad then .failed else .active, spares := sp }
      if bad then s.chanFailed p else s) s
    let s := s.setMode .load
    .next (if s.testing then { s with pwr.loadWait := true } else s.startUpLoad)

/-- FABRIC_RESET_RELEASE: 256 timeline ticks after the clocks start, in every meadow that is not between steps 4 and 6 of a
swap (R424). Asynchronous set/resets follow it at once (R54). -/
def execFabricResetRelease (s : State) : Res :=
  if s.running ∧ s.pwr.fabClk then .next (s.allMea fun x => if x.swapped then x else { x with frst := false }).settleAll
  else .next s

end Sys2Proof.Machine
end

