-- ==== Sys2Proof/Machine/Loader.lean ====
section
/-! DEFINITION. The configuration loader (spec/17_configuration_loading.md): start-up loads, CONFIG_LOAD and RECOAT_LOAD, the
header, the blocks, the records, the outcome. -/

namespace Sys2Proof.Machine

/-! ## Load causes (R374) -/

def lBadHeader : Nat := 0x01
def lWrongDevice : Nat := 0x02
def lPolicy : Nat := 0x03
def lSigFail : Nat := 0x04
def lKeyMismatch : Nat := 0x05
def lKeyAbsent : Nat := 0x06
def lAuthFail : Nat := 0x07
def lTruncated : Nat := 0x08
def lBadRecord : Nat := 0x09
def lFrameAddr : Nat := 0x0A
def lOutOfRegion : Nat := 0x0B
def lDupFrame : Nat := 0x0C
def lRouteCode : Nat := 0x0D
def lWriteVerify : Nat := 0x0E
def lChainPos : Nat := 0x0F
def lChainTimeout : Nat := 0x10
def lFlash : Nat := 0x11
def lSourceRead : Nat := 0x12

/-! ## Bytes -/

def bytesAt (l : List Byte) (off n : Nat) : List Byte := (l.drop off).take n
def numAt (l : List Byte) (off n : Nat) : Nat := leNat (bytesAt l off n)
def zeroAt (l : List Byte) (off n : Nat) : Bool := (bytesAt l off n).all (· = 0)

/-- CRC-32 with the IEEE 802.3 polynomial over bytes, bit 0 of each first (R381). -/
def crcBits (c : BitVec 32) : Nat → BitVec 32
  | 0 => c
  | n + 1 => crcBits (if c.getLsbD 0 then (c >>> 1) ^^^ 0xEDB88320 else c >>> 1) n

def crc32 (l : List Byte) : BitVec 32 :=
  ~~~(l.foldl (fun c b => crcBits (c ^^^ b.setWidth 32) 8) 0xFFFFFFFF)

/-! ## Planes -/

/-- A frame of data with its signature table entry; an ESSMAP word given before stays (R364, R381). -/
def Plane.put (p : Plane) (f : Nat) (data : List Byte) (src : BitVec 2) (blk off : Nat) : Plane :=
  { p with
    frames := p.frames.set 0 f (BitVec.ofNat 4096 (leNat data)), flips := p.flips.set 0 f 0, checks := p.checks.set 0 f 0
    sigs := p.sigs.upd {} f fun e =>
      { essmap := e.essmap, crc := crc32 data, src := src, block := BitVec.ofNat 14 blk, offset := BitVec.ofNat 13 off } }

/-- At END the frames that no record wrote are written zero, with the entries of frames of zeros (R364, R366). -/
def Plane.zeroRest (p : Plane) (written : Nat → Bool) : Plane :=
  let rest := fun f => !written f
  let sig := fun e : Nat × SigEntry => if written e.1 then e else (e.1, { essmap := e.2.essmap })
  { p with frames := p.frames.drop rest, flips := p.flips.drop rest, checks := p.checks.drop rest
           sigs := ⟨(p.sigs.ents.map sig).filter fun e => e.2 ≠ {}⟩ }

/-- Some frame of the plane was given by the image, and not only as zeros (R381). -/
def Plane.given (p : Plane) : Bool := p.sigs.ents.any fun e => e.2.src ≠ 2

/-- The plane that a load writes in a meadow: the undercoat for a partial image (R366). -/
def Meadow.onLoad (x : Meadow) (recoat : Bool) (f : Plane → Plane) : Meadow :=
  if recoat then { x with under := f x.under } else { x with live := f x.live }

def State.clearUnder (s : State) (m : Nat) (st : Undercoat) : State :=
  s.updMea m fun x => { x with under := {}, ucState := st }

/-- Image stores that no live plane, VERIFIED or PREVIOUS undercoat and no running load holds are released (R380). -/
def State.storeUsed (s : State) (hd : Nat) : Bool :=
  (s.fab.ents.any fun e => e.2.live.store = some hd || e.2.under.store = some hd) ||
    (match s.ldr.job with | some j => j.store = some hd | none => false)

def State.releaseStores (s : State) : State :=
  each ((s.pool.buf.ents.filter fun e => (match e.2 with | some b => b.isStore | none => false) && !s.storeUsed e.1).map (·.1))
    (fun hd s => s.freeBuf hd) s

/-! ## Reading the image (R368, R370, R372) -/

/-- A flash is usable: a valid SFDP table that offers 8D-8D-8D (R368). -/
def Flash.usable (x : Flash) : Bool := x.sfdp && x.octal

/-- Bytes of the stream of both flashes: byte 2a is byte a of flash 0, byte 2a + 1 byte a of flash 1 (R368). -/
def Loader.stream (x : Loader) (off n : Nat) : List Byte :=
  (List.range n).map fun i => (if (off + i) % 2 = 0 then x.flash0 else x.flash1).mem.read ((off + i) / 2)

/-- `n` bytes of the image from `off` on, or the load cause of a read that fails. What arrives on the chain port is the
upstream device's: free bytes (log 24). -/
def State.loadRead (s : State) (j : Load) (off n : Nat) : State × Except Nat (List Byte) :=
  match j.src with
  | .flash => if 2 ^ 33 < j.off + off + n then (s, .error lTruncated) else (s, .ok (s.ldr.stream (j.off + off) n))
  | .buffer =>
    if j.len < off + n then (s, .error lTruncated)
    else
      let host := match j.cmd with | some b => b.host | none => s.pwr.owner
      let g := s.bufRead (forCommand host j.world) j.handle (j.off + off) n
      if g.st = hsOk then (g.s, .ok g.data) else (g.s, .error lSourceRead)
  | .chain => let (d, s) := s.drawBytes (n / 8); (s, .ok d)

/-- The reads of the load reach only lines that exist (R229). -/
def State.loadLines (s : State) (j : Load) : Bool := j.src ≠ .buffer || s.linesExist j.handle

/-! ## Failures (R374) -/

/-- The next waiting recoat load starts. -/
def State.nextLoad (s : State) : State :=
  match s.ldr.queue with
  | [] => { s with ldr.job := none }
  | j :: r => { s with ldr.job := some j, ldr.queue := r }

def State.loadFailedEvent (s : State) (j : Load) (cause : Nat) : State := s.allEvent 0x0302 [cause, j.fa]

/-- The final response of a load's command. -/
def State.loadFinish (s : State) (j : Load) (status : BitVec 8) (cause : Nat) : State :=
  match j.cmd with | some b => s.finish b status (BitVec.ofNat 16 cause) | none => s

/-- A load fails: a recoat load ends at once, every target EMPTY; a full load's outcome follows (FULL_LOAD_FAILED). -/
def State.loadFail (s : State) (j : Load) (cause : Nat) : State :=
  if j.recoat then
    let s := each j.targets (fun m s => s.clearUnder m .empty) s
    let s := (s.nextLoad.releaseStores.loadFailedEvent j cause)
    s.loadFinish j stFailed cause
  else { s with ldr.job := some { j with failed := some cause, body := [], inBody := false } }

/-- A full load still running and not failed, or a recoat load running. -/
def State.loading (s : State) : Option Load :=
  match s.ldr.job with
  | some j => if s.alive ∧ j.failed.isNone ∧ ¬ j.ended then some j else none
  | none => none

/-! ## CONFIG_LOAD (R370, R371) -/

/-- Fabric-target requests end with a status, each transaction once. -/
def State.endTargets (s : State) (l : List GateReq) (st : BitVec 3) : State :=
  each l (fun q s => if (q.who, q.tag) ∈ s.hg.wait then s.hgAnswer q.who q.tag { s := s, st := st } else s) s

/-- The gate's requests that still wait in its interface leave in order: no acknowledgement that one waits for comes any more (R208,
R210, R371, R384). -/
def State.gateLeaves (s : State) (m : Nat) : State :=
  let s := s.updMea m fun x => { x with gate := { x.gate with
    wtags := [], outq := x.gate.outq.map fun q => { q with req := { q.req with ord := false } } } }
  s.drainGate m (s.mea m).gate.outq.length

/-- A meadow's gate closes: its requests have left, what waits there ends with ERROR, and nothing of the gate's own requests reaches
it any more (R213, R371). Events held for the fabric stay (R507). -/
def State.closeGate (s : State) (m : Nat) : State :=
  let g := (s.mea m).gate
  let s := s.gateLeaves m
  let s := s.updMea m fun x => { x with gate := { events := g.events } }
  let s := s.endTargets (g.target ++ g.held) hsError
  { s with hg.resp := s.hg.resp.filter fun r => r.who ≠ ⟨3, m⟩, hg.wait := s.hg.wait.filter fun w => w.1 ≠ ⟨3, m⟩ }

/-- The queues that the personality of a meadow's plane defines. -/
def Personality.queues (p : Personality) (m : Nat) : List (Nat × QueueCfg) :=
  p.skims.ents.flatMap fun e =>
    ((List.range 8).filter fun i => e.2.enabled i).map fun i => (8 * (64 * m + e.1) + i, e.2.queue i)

def State.meadowQueues (s : State) (m : Nat) : List (Nat × QueueCfg) := (s.mea m).live.pers.queues m

/-- The scrubber stops in its pass: the time it has run counts (R393, R396). -/
def Scrubber.stopped (c : Scrubber) (now : Nat) : Scrubber :=
  { c with passStart := none, passRan := c.passRan + (match c.passStart with | some t => now - t | none => 0) }

/-- RUN or SERVICE gives way to LOAD: gates, hold, clocks, queues, cues, undercoats, columns (R365, R371, R377). -/
def State.leaveFabric (s : State) : State :=
  let s := each s.ldr.queue (fun j s => s.loadFinish j stAborted 0) s
  let s : State := { s with ldr.queue := [] }
  let s := s.disarmAll cFabricReload fun c => c.action / 256 = 3 || c.action / 256 = 4
  let s := each (List.range 192) (fun m s =>
    let s := each (s.meadowQueues m) (fun q s => s.redefine q.1 q.2 false cFabricReload) s
    s.closeGate m) s
  let s := s.allMea fun x =>
    { x.seeded with frst := true, masked := false, swapT := none, swapped := false, under := {}, ucState := .empty }
  let s : State := { s with pwr := { s.pwr with ghold := true, fabClk := false, cfgDone := false } }
  -- pins under the hold: the values of the plane that was live (R476)
  let s := each (List.range 192) (fun m s => s.initPins m) s
  let s := each [0, 1, 2, 3] (fun h s => s.setScrub h { (s.scrub h).stopped s.tl.now with rebuild := none, turn := false }) s
  s.releaseStores.setMode .load

/-- The QUEUED commands that CONFIG_LOAD does not wait for: the recoat loads still waiting. -/
def State.waitingLoads (s : State) : List Bg := s.ldr.queue.filterMap (·.cmd)

def configLoad (s : State) (h : Nat) (c : Cmd) : Ans :=
  if s.ldr.job.isSome ∨ s.testing ∨ s.pwr.loadWait ∨ (s.wrd.bg.any fun b => !s.waitingLoads.contains b) = true then .busy s
  else
    let service := decide (s.pwr.mode = .service)
    let s := if s.running then s.leaveFabric else s
    let j : Load :=
      { src := if c.f 0 0 1 = 1 then .buffer else .flash, handle := c.f 1 0 20
        off := if c.f 0 0 1 = 1 then c.f 1 20 36 else 0, len := c.arg 2, cmd := some (c.bg h), world := c.world, service := service }
    .queued (s.startLoad j)

def execConfigLoad (h : HostId) (s : State) : Res := runCmd h 0x0301 anyCmd configLoad s

/-! ## RECOAT_LOAD, RECOAT_DISCARD (R366, R375, R377, R378, R388) -/

/-- A RECOAT_SWAP cue is armed on the meadow, or one has launched and its S is to come. -/
def State.swapPending (s : State) (m : Nat) : Bool := s.swapArmed m || (s.mea m).swapT.isSome

/-- A recoat load that runs or waits names the meadow. -/
def State.recoatNames (s : State) (m : Nat) : Bool :=
  (s.ldr.job.toList ++ s.ldr.queue).any fun j => j.recoat && j.targets.contains m

/-- The meadows of a 192-bit MEADOWS field. -/
def meadowsOf (v : BitVec 192) : List Nat := (List.range 192).filter fun m => v.getLsbD m

/-- The meadows that a partial image's header names; none when the header cannot be read: the load then fails by itself. -/
def State.imageTargets (s : State) (j : Load) : List Nat :=
  match (s.loadRead j 0 512).2 with
  | .ok l => meadowsOf (BitVec.ofNat 192 (numAt l 40 24))
  | .error _ => []

/-- The load that a RECOAT_LOAD asks for. -/
def Cmd.recoatJob (c : Cmd) (h : Nat) : Load :=
  { src := .buffer, handle := c.f 1 0 20, off := c.f 1 20 36, len := c.arg 2, cmd := some (c.bg h), world := c.world, recoat := true }

def recoatLoad (s : State) (h : Nat) (c : Cmd) : Ans :=
  let j := c.recoatJob h
  let j := { j with targets := s.imageTargets j }
  if j.targets.any fun m => !reaches c.world (s.mea m).world then .denied s h c
  else if j.targets.any fun m => s.swapPending m || s.recoatNames m then .busy s
  else
    let s := each j.targets (fun m s => s.clearUnder m .loading) s
    let s : State :=
      if s.ldr.job.isSome then { s with ldr.queue := s.ldr.queue ++ [j] } else { s with ldr.job := some j }
    .queued s.releaseStores

def execRecoatLoad (h : HostId) (s : State) : Res := runCmd h 0x0302 anyCmd recoatLoad s

/-- RECOAT_LOAD_DONE: every target becomes VERIFIED together. -/
def execRecoatLoadDone (s : State) : Res :=
  match s.ldr.job with
  | some j =>
    if j.recoat ∧ j.ended ∧ s.alive then
      let host := j.cmd.map (·.host)
      let s := each j.targets (fun m s => s.updMea m fun x => { x with ucState := .verified, under.issuer := host }) s
      let info := match j.hdr with | some x => [x.length, x.build.toNat] | none => []
      let s := s.nextLoad.allEvent 0x0301 (1 :: info)
      .next (s.loadFinish j stOk 0)
    else .next s
  | none => .next s

/-- RECOAT_DISCARD. A LOADING undercoat is its load's: BUSY. DESIGN CHOICE (log 24). -/
def execRecoatDiscard (h : HostId) (s : State) : Res :=
  runCmd h 0x0303 anyCmd (fun s h c =>
    let m := c.f 0 0 8
    let x := s.mea m
    if ¬ reaches c.world x.world then .denied s h c
    else if s.swapPending m ∨ x.ucState = .loading then .busy s
    else if x.ucState = .empty then .ignored s
    else { s := (s.clearUnder m .empty).releaseStores }) s

/-! ## The boot pointer table and the header (R358, R359, R368, R369) -/

/-- BOOT_POINTER_TABLE: the SFDP tables are read, both flashes switch to 8D-8D-8D, and the table is read, at the start of a flash
load. -/
def execBootPointerTable (s : State) : Res :=
  match s.loading with
  | none => .next s
  | some j =>
    if j.src ≠ .flash ∨ j.ptr then .next s
    else if ¬ (s.ldr.flash0.usable ∧ s.ldr.flash1.usable) then .next (s.loadFail j lFlash)
    else
      let s : State := { s with ldr.flash0.switched := true, ldr.flash1.switched := true }
      let t := s.ldr.stream 0 32
      let primary := numAt t 8 8
      let back := numAt t 16 8
      if numAt t 0 4 ≠ 0x42505431 ∨ ¬ zeroAt t 4 4 ∨ ¬ zeroAt t 24 8 ∨ primary % 65536 ≠ 0 ∨ back % 65536 ≠ 0 then
        .next (s.loadFail j lBadHeader)
      else
        let fb := if s.pwr.straps.cfgSrc = 3 then 0 else back
        .next { s with ldr.job := some { j with ptr := true, off := primary, fbOff := fb } }

/-- The header's fields. -/
def parseHeader (l : List Byte) : Header :=
  let flags := numAt l 13 1
  { kind := numAt l 6 1, chainPos := numAt l 7 1, enc := fld flags 0 1 = 1, keySrc := fld flags 1 1 = 1
    length := numAt l 16 8, blocks := numAt l 24 4, iv := bytesAt l 32 8
    meadows := BitVec.ofNat 192 (numAt l 40 24), firstFrame := numAt l 64 2, lastFrame := numAt l 66 2
    digest := bytesAt l 128 48, aad := Config.sha384 l, build := BitVec.ofNat 128 (numAt l 176 16) }

/-- Check 1: magic, format, kind, reserved bytes, length. A BLOCK_COUNT beyond R358's range is malformed: DEDUCED (log 24). -/
def headerForm (l : List Byte) (x : Header) : Bool :=
  numAt l 0 4 = 0x53504E31 && numAt l 4 2 = 1 && decide (x.kind ≤ 1) && decide (numAt l 13 1 < 4) && zeroAt l 14 2 && zeroAt l 28 4 &&
    zeroAt l 68 60 && zeroAt l 384 128 && x.length = 512 + 65536 * x.blocks && rng x.blocks 1 16384

/-- Check 5: the key in the header under the lifecycle policy (R357). -/
def State.keyTrusted (s : State) (pub : List Byte) : Bool :=
  match s.sec.life with
  | .blank => true
  | .opened | .sealed => Config.sha384 pub = s.sec.ownerHash
  | .returned => Config.sha384 pub = Config.returnKeyHash
  | .scrapped => false

/-- The decryption key of a KEY_SRC value (R360). -/
def State.loadKey (s : State) (ram : Bool) : Option (BitVec 256) := if ram then s.sec.keyRam else s.sec.efuse

/-- The header's checks of R359 in order: the load cause of the first that fails. -/
def State.headerFault (s : State) (j : Load) (l : List Byte) (x : Header) : Option Nat :=
  if ¬ headerForm l x then some lBadHeader
  else if numAt l 8 2 ≠ 0x9612 ∨ numAt l 10 2 ≠ 0x061A ∨ 1 < numAt l 12 1 then some lWrongDevice
  else if (x.kind = 1) ≠ (j.recoat = true) ∨
      (j.recoat = true ∧ (x.meadows = 0 ∨ x.lastFrame < x.firstFrame ∨ 3071 < x.lastFrame)) then some lBadHeader
  else if s.sec.life = .scrapped ∨ (s.sec.life = .sealed ∧ ¬ x.enc) ∨ (s.sec.life = .blank ∧ x.enc ∧ ¬ x.keySrc) then some lPolicy
  else if ¬ s.keyTrusted (bytesAt l 192 96) then some lSigFail
  else if ¬ Config.ecdsaVerify (bytesAt l 192 96) (l.take 288 ++ List.replicate 96 0 ++ l.drop 384) (bytesAt l 288 96) then
    some lSigFail
  else if x.enc ∧ x.keySrc ≠ s.sec.keySrc then some lKeyMismatch
  else if x.enc ∧ s.loadKey x.keySrc = none then some lKeyAbsent
  else if j.src = .chain ∧ some x.chainPos ≠ s.ldr.pos then some lChainPos
  else none

/-- The image store of an accepted image (R380): none when no placement exists (R382). -/
def State.openStore (s : State) (x : Header) : Option Nat × State :=
  let n := (x.length + 4095) / 4096
  if 262144 < n then (none, s)
  else
    match s.alloc 0 { size := n, bw := 0, lat := 0, world := false, pref := 0 } true with
    | some (hd, s) => (some hd, s)
    | none => (none, s)

def State.storePut (s : State) (hd : Option Nat) (off : Nat) (data : List Byte) : State :=
  match hd with | some h => (s.bufPut wardenAsker h off data).s | none => s

/-- Every live plane, skim row and screed row becomes zero: before a full image is written, and after one has failed. Flip-flops
follow SEED under the hold (R54, R65). -/
def State.clearFabric (s : State) : State :=
  let s := s.allMea fun x => { x with live := {}, swaps := 0 : Meadow }.seeded
  { s with mem := { s.mem with skim := {}, screed := {}, skimMark := {}, screedMark := {} } }

/-- IMAGE_HEADER. -/
def execImageHeader (s : State) : Res :=
  match s.loading with
  | none => .next s
  | some j =>
    if j.hdr.isSome ∨ (j.src = .flash ∧ ¬ j.ptr) ∨ (j.src = .chain ∧ s.ldr.pos = none) then .next s
    else if j.src = .chain ∧ 7 < s.ldr.pos.getD 0 then .next (s.loadFail j lChainPos)
    else if ¬ s.loadLines j then .fault .noSuchLine
    else
      match s.loadRead j 0 512 with
      | (s, .error e) => .next (s.loadFail j e)
      | (s, .ok l) =>
        let x := parseHeader l
        match s.headerFault j l x with
        | some e => .next (s.loadFail j e)
        | none =>
          let s := if j.recoat then s else s.clearFabric
          let (hd, s) := s.openStore x
          let s := s.storePut hd 0 l
          .next { s with
            ldr.job := some { j with hdr := some x, store := hd }
            ldr.keyCopy := s.ldr.keyCopy || (x.enc && !x.keySrc) }

/-! ## Blocks (R361, R362) -/

/-- The plain bytes 0-65,519 of block `k`, when its digest is `digest` and, encrypted, its tag verifies. -/
def openBlock (key : Option (BitVec 256)) (x : Header) (digest : List Byte) (k : Nat) (raw : List Byte) : Option (List Byte) :=
  if Config.sha384 raw ≠ digest then none
  else if x.enc then
    match key with
    | some key => Config.gcmDecrypt key (x.iv ++ leBytes 4 k) x.aad (raw.take 65520) (bytesAt raw 65520 16)
    | none => none
  else some (raw.take 65520)

/-- Forwarding: the stream that follows goes on downstream once the chain link has trained (R373). What a receiver does that stalls it
is the other device's. -/
def State.chainOut (s : State) : State :=
  if s.ldr.forward ∧ s.ldr.pos.isSome then s.emit (.chainForward s.ldr.fwdAt) else s

/-- The last block of a flash or chain image has passed: forwarding begins (R373). -/
def State.beginForward (s : State) (j : Load) (x : Header) : State :=
  ({ s with ldr.forward := true, ldr.fwdAt := if j.src = LoadSrc.flash then some (j.off + x.length) else none }).chainOut

/-- IMAGE_BLOCK: the next block is held and authenticated. -/
def execImageBlock (s : State) : Res :=
  match s.loading with
  | none => .next s
  | some j =>
    match j.hdr with
    | none => .next s
    | some x =>
      if j.inBody ∨ x.blocks ≤ j.blk then .next s
      else if ¬ s.loadLines j then .fault .noSuchLine
      else
        let k := j.blk
        match s.loadRead j (512 + 65536 * k) 65536 with
        | (s, .error e) => .next (s.loadFail j e)
        | (s, .ok raw) =>
          match openBlock (s.loadKey x.keySrc) x x.digest k raw with
          | none => .next (s.loadFail j lAuthFail)
          | some p =>
            let s := s.storePut j.store (512 + 65536 * k) raw
            let j := { j with hdr := some { x with digest := bytesAt p 65472 48 }, blk := k + 1, body := p.take 65472, inBody := true }
            let s : State := { s with ldr.job := some j }
            .next (if j.src ≠ .buffer ∧ k + 1 = x.blocks then s.beginForward j x else s)

/-! ## Records (R363-R366) -/

/-- The next record's header, when a block's body is held. -/
def Load.record (j : Load) : Option Nat := if j.inBody then some (numAt j.body 0 8) else none
def recType (w : Nat) : Nat := fld w 60 4

/-- The record row of TYPE `t` acts on the record that comes next, when it has that TYPE. -/
def onRecord (s : State) (p : Nat → Bool) (f : Load → Header → Nat → State) : Res :=
  match s.loading with
  | none => .next s
  | some j =>
    match j.hdr, j.record with
    | some x, some w => if p (recType w) then .next (f j x w) else .next s
    | _, _ => .next s

/-- `n` bytes of the body have been used. A last block that ends without END is TRUNCATED. -/
def State.recordUsed (s : State) (j : Load) (x : Header) (n : Nat) : State :=
  let body := j.body.drop n
  if body ≠ [] then { s with ldr.job := some { j with body := body } }
  else if x.blocks ≤ j.blk then s.loadFail j lTruncated
  else { s with ldr.job := some { j with body := [], inBody := false } }

/-- RECORD_PAD: the rest of the body is ignored. A record of a TYPE that the table does not have is refused here. -/
def execRecordPad (s : State) : Res :=
  onRecord s (fun t => !([1, 2, 3, 4, 6, 15] : List Nat).contains t) fun j x w =>
    if w ≠ 0 then s.loadFail j lBadRecord else s.recordUsed j x j.body.length

/-- Bits of a record header that the table names are `ok`; every other bit is zero. -/
def named (w : Nat) (l : List (Nat × Nat)) : Bool := pack (l.map fun f => (fld w f.1 f.2, f.1)) = w

/-- The frame addresses of a record meet R364 and R366 (the meadows are those that the command was checked for): the load cause and the address of the first that does not. -/
def frameFault (j : Load) (x : Header) (fa n : Nat) : Option (Nat × Nat) :=
  if 192 ≤ fa / 4096 ∨ 3072 < fa % 4096 + n then some (lFrameAddr, fa)
  else if j.recoat then
    match ((List.range n).map (fa + ·)).find? fun a =>
      !(j.targets.contains (a / 4096) && rng (a % 4096) x.firstFrame x.lastFrame) with
    | some a => some (lOutOfRegion, a)
    | none => none
  else none

/-- Write frames one after another: duplicates, routing codes (a frame of zeros made by the loader is legal), verification. -/
def State.writeFrames (s : State) (j : Load) (src : BitVec 2) (blk : Nat) (bad : List Nat) :
    List (Nat × List Byte × Nat) → State × Load × Option Nat
  | [] => (s, j, none)
  | (fa, data, off) :: r =>
    let j := { j with fa := fa }
    if j.frames.contains fa then (s, j, some lDupFrame)
    else if src ≠ 2 ∧ frameRefused (fa % 4096) (BitVec.ofNat 4096 (leNat data)) then (s, j, some lRouteCode)
    else
      let s := s.updMea (fa / 4096) fun m => m.onLoad j.recoat fun p => p.put (fa % 4096) data src blk off
      if bad.contains fa then (s, j, some lWriteVerify)
      else s.writeFrames { j with frames := fa :: j.frames } src blk bad r

/-- A FRAMES, REPEAT or ZERO record of `n` frames whose data takes `size` bytes; `data i` are those of its frame `i` and
where they lie after the record header. -/
def State.frameRecord (s : State) (j : Load) (x : Header) (w : Nat) (src : BitVec 2) (lim size : Nat)
    (data : Nat → List Byte × Nat) (bad : List Nat) : State :=
  let fa := fld w 32 20
  let n := fld w 0 16
  if ¬ named w [(0, 16), (32, 20), (60, 4)] ∨ ¬ rng n 1 lim ∨ j.body.length < 8 + size then s.loadFail j lBadRecord
  else
    match frameFault j x fa n with
    | some (e, a) => s.loadFail { j with fa := a } e
    | none =>
      let at_ := (65472 - j.body.length + 8) / 8
      match s.writeFrames j src (j.blk - 1) bad ((List.range n).map fun i => (fa + i, (data i).1, at_ + (data i).2 / 8)) with
      | (s, j, none) => s.recordUsed j x (8 + size)
      | (s, j, some e) => s.loadFail j e

/-- RECORD_FRAMES. `bad` names the frames whose second read-back differs too. -/
def execRecordFrames (bad : List Nat) (s : State) : Res :=
  onRecord s (· = 1) fun j x w =>
    s.frameRecord j x w 0 127 (512 * fld w 0 16) (fun i => (bytesAt j.body (8 + 512 * i) 512, 512 * i)) bad

/-- RECORD_REPEAT. -/
def execRecordRepeat (bad : List Nat) (s : State) : Res :=
  onRecord s (· = 2) fun j x w => s.frameRecord j x w 1 3072 512 (fun _ => (bytesAt j.body 8 512, 0)) bad

/-- RECORD_ZERO. -/
def execRecordZero (bad : List Nat) (s : State) : Res :=
  onRecord s (· = 3) fun j x w => s.frameRecord j x w 2 3072 0 (fun _ => (List.replicate 512 0, 0)) bad

/-- RECORD_MEM: rows of a skim or screed block, in a full image only. -/
def execRecordMem (s : State) : Res :=
  onRecord s (· = 4) fun j x w =>
    let screed := fld w 59 1 = 1
    let blk := fld w 44 14
    let row := fld w 31 13
    let n := fld w 0 14
    if j.recoat ∨ ¬ named w [(0, 14), (31, 13), (44, 14), (59, 1), (60, 4)] ∨ ¬ rng n 1 8183 ∨ j.body.length < 8 + 8 * n ∨
        (if screed then 1152 ≤ blk ∨ 8192 < row + n else 12288 ≤ blk ∨ 1024 < row + n) then s.loadFail j lBadRecord
    else
      let d := bytesAt j.body 8 (8 * n)
      let s : State :=
        if screed then { s with mem.screed := s.mem.screed.writeN (65536 * blk + 8 * row) d }
        else { s with mem.skim := s.mem.skim.writeN (8192 * blk + 8 * row) d }
      s.recordUsed j x (8 + 8 * n)

/-- RECORD_ESSMAP: one essential-word mask per frame. -/
def execRecordEssmap (s : State) : Res :=
  onRecord s (· = 6) fun j x w =>
    let fa := fld w 32 20
    let n := fld w 0 14
    if ¬ named w [(0, 14), (32, 20), (60, 4)] ∨ ¬ rng n 1 8183 ∨ j.body.length < 8 + 8 * n then s.loadFail j lBadRecord
    else
      match frameFault j x fa n with
      | some (e, a) => s.loadFail { j with fa := a } e
      | none =>
        let fas := (List.range n).map (fa + ·)
        match fas.find? fun a => j.essmaps.contains a with
        | some a => s.loadFail { j with fa := a } lDupFrame
        | none =>
          let s := each (List.range n) (fun i s =>
            s.updMea (fa / 4096) fun m => m.onLoad j.recoat fun p =>
              { p with sigs := p.sigs.upd {} (fa % 4096 + i) fun e => { e with essmap := BitVec.ofNat 64 (numAt j.body (8 + 8 * i) 8) } }) s
          s.recordUsed { j with essmaps := fas ++ j.essmaps, fa := fa + n - 1 } x (8 + 8 * n)

/-- SCRUB_FAULT detail: cause, class, plane, frame, meadow (R391). -/
def scrubDetail (cause method cls : Nat) (under : Bool) (frame m : Nat) : BitVec 96 :=
  BitVec.ofNat 96 (pack [(cause, 28), (method, 24), (cls, 21), (bit under, 20), (frame, 8), (m, 0)])

/-- NO_STORE, once for each meadow that has no store (R382). -/
def State.noStore (s : State) (j : Load) (ms : List Nat) : State :=
  if j.store.isSome then s
  else each ms (fun m s => s.eventAt [s.pwr.owner] 0x0A02 (scrubDetail 1 0 0 j.recoat 0 m) s.tl.now) s

/-- The meadows whose planes a load writes. -/
def Load.meadows (j : Load) : List Nat := if j.recoat then j.targets else List.range 192

/-- The frame that END writes zero and whose second read-back differs too, if `v` says that there is one: no row gives it, and none
of those that records wrote is it (R364; log 24). -/
def Load.endFault (j : Load) (v : BitVec 64) : Option Nat :=
  let n := v.toNat / 2
  let fa := 4096 * j.meadows.getD (n % j.meadows.length) 0 + n / 192 % 3072
  if v.getLsbD 0 ∧ ¬ j.frames.contains fa then some fa else none

/-- END: frames that no record wrote are written zero; the planes mean what their frames hold. A field that lies in more than one
frame is checked here (R77, R106), and SWAP_CLK where the image gives the meadow a personality (R383; log 24). -/
def State.endImage (s : State) (j : Load) (x : Header) (v : BitVec 64) : State :=
  let s := each j.meadows (fun m s => s.updMea m fun y =>
    let y := y.onLoad j.recoat fun p =>
      { (p.zeroRest fun f => j.frames.contains (4096 * m + f)).decode with
        store := j.store, noStore := j.store.isNone, build := x.build }
    if j.recoat then y else y.seeded) s
  match j.endFault v with
  | some fa => s.loadFail { j with fa := fa } lWriteVerify
  | none =>
    if j.meadows.any fun m => let p := (s.mea m).plane j.recoat; p.given && p.pers.refused then s.loadFail j lRouteCode
    else ({ s with ldr.job := some { j with body := [], inBody := false, ended := true } } : State).noStore j j.meadows

/-- RECORD_END: END lies in the last block. -/
def execRecordEnd (s : State) : Res :=
  onRecord s (· = 15) fun j x w =>
    if ¬ named w [(60, 4)] ∨ j.blk < x.blocks then s.loadFail j lBadRecord
    else
      let (v, s) := s.draw
      s.endImage j x v

/-! ## The outcome of a full load (R66, R369, R374) -/

/-- FULL_LOAD_FAILED: what was written is cleared; the fallback is tried once, or the failure is final. -/
def execFullLoadFailed (s : State) : Res :=
  match s.ldr.job with
  | none => .next s
  | some j =>
    match j.failed with
    | none => .next s
    | some cause =>
      if ¬ s.alive then .next s
      else
        let s := if j.hdr.isSome then s.clearFabric else s
        let s := (({ s with ldr.job := none }).releaseStores).loadFailedEvent j cause
        if j.src = .flash ∧ ¬ j.fallback ∧ j.fbOff ≠ 0 then
          let again : Load :=
            { src := .flash, off := j.fbOff, cmd := j.cmd, world := j.world, ptr := true, service := j.service, fallback := true }
          .next (s.startLoad again)
        else
          let s : State := { s with pwr := { s.pwr with cfgErrN := true, cfgErr := true, loadCause := BitVec.ofNat 7 cause } }
          .next (s.loadFinish j stFailed cause)

/-- The rows of the skim blocks that the personality of a meadow puts in queue mode do not survive (R365): they hold queues, whose
layout is the controller's (R130). -/
def State.dropQueueRows (s : State) (m : Nat) : State :=
  each ((s.mea m).live.pers.skims.ents.filter fun e => e.2.queueMode) (fun e s =>
    { s with mem.skim := s.mem.skim.clear (8192 * (64 * m + e.1)) 8192 }) s

/-- GLOBAL_HOLD_RELEASE: the hold, the gates, the fabric clocks, the queues, the pins, CFG_DONE; RUN, or SERVICE again. -/
def execGlobalHoldRelease (s : State) : Res :=
  match s.ldr.job with
  | none => .next s
  | some j =>
    if ¬ j.ended ∨ j.recoat ∨ ¬ s.alive then .next s
    else
      let s := s.allMea fun x => { x.seeded with gate := { x.gate with isOpen := true, ready := true } }
      let s : State := { s with
        que.q := {}, que.port := {}
        ldr.job := none
        pwr := { s.pwr with ghold := false, fabClk := true, cfgDone := true, cfgErr := false, loadCause := 0 } }
      let s := each (List.range 192) (fun m s =>
        each (s.meadowQueues m) (fun q s => s.setQueue q.1 (freshQueue q.2)) ((s.dropQueueRows m).initPins m)) s
      let s := each (List.range 16) (fun b s => s.measureVccio b) s.settleAll
      let code := match j.src with | .flash => 0 | .buffer => 1 | .chain => 2
      let info := match j.hdr with | some x => [x.length, x.build.toNat] | none => []
      let s := s.releaseStores.allEvent 0x0301 (code :: info)
      let s := s.setMode (if j.service then .service else .run)
      .next (s.loadFinish j stOk 0)

/-! ## The chain port (R372, R373) -/

/-- CHAIN_LINK_TRAINED: both root loops run from a crystal or an external reference. The own position is sent in the training; one
above 7 ends a chain load, also one that starts later. -/
def execChainLinkTrained (up : BitVec 4) (s : State) : Res :=
  if ¬ s.clk.locked ∨ s.clk.fast ∨ ¬ s.alive then .next s
  else
    let p := if s.pwr.straps.cfgSrc ≠ 2 then 0 else up.toNat + 1
    let s : State := { s with ldr.pos := some p }
    if p ≤ 7 then .next (s.emit (.chainPos p)).chainOut
    else
      match s.loading with
      | some j => if j.src = .chain then .next (s.loadFail j lChainPos) else .next s
      | none => .next s

/-- CHAIN_TIMEOUT: no image has begun to arrive within 8 s. -/
def execChainTimeout (s : State) : Res :=
  match s.loading with
  | some j => if j.src = .chain ∧ j.hdr = none then .next (s.loadFail j lChainTimeout) else .next s
  | none => .next s

/-- Blocks of the image are still to come; of one whose header is not whole, all of them. -/
def Load.arriving (j : Load) : Bool := match j.hdr with | some x => decide (j.blk < x.blocks) | none => true

/-- CHAIN_STALL_TIMEOUT: the stream stops for 50 ms within the image, its header among it. -/
def execChainStallTimeout (s : State) : Res :=
  match s.loading with
  | some j => if j.src = .chain ∧ j.arriving then .next (s.loadFail j lTruncated) else .next s
  | none => .next s

end Sys2Proof.Machine
end

