-- ==== Sys2Proof/Machine/Mailbox.lean ====
section
/-! DEFINITION. The mailbox protocol (spec/16_warden_mailbox.md): doorbells, the general checks, the read pointers, the
vector mask, DENIED windows, and the commands of group 0x01. -/

namespace Sys2Proof.Machine

/-! ## Acceptance (R337, R338) -/

/-- Dword `i` of the slot of a sequence number in host `h`'s command ring. -/
def Mbox.slot (m : Mbox) (seq : BitVec 32) (i : Nat) : BitVec 32 := m.cmd.get 0 (16 * (seq.toNat % 64) + i)

/-- The command that a slot holds, for acceptance now (R336). Host 4 issues the owner's commands in the non-secure world, whatever
its own (R438). -/
def State.slotCmd (s : State) (h : Nat) (seq : BitVec 32) : Cmd :=
  let m := s.mb h
  let board := decide (h = 4) && ownerCodes.contains ((m.slot seq 1).setWidth 16).toNat
  { seq := seq, code := (m.slot seq 1).setWidth 16, tag := (m.slot seq 1 >>> 16).setWidth 16,
    args := (List.range 7).map fun i => (m.slot seq (3 + 2 * i)) ++ (m.slot seq (2 + 2 * i)),
    world := s.hostWorld h && !board, at_ := s.tl.now }

/-- A doorbell of host `h` (R337, R338). A halted warden holds the expected one (R465). -/
def State.doorbell (s : State) (h : Nat) (v : BitVec 32) : State :=
  let m := s.mb h
  if v ≠ m.expect ∨ m.slot v 0 ≠ v then s.setMb h { m with ignored := satInc m.ignored }
  else if s.wrd.halted ∨ 64 ≤ m.accepted.length then s.setMb h { m with heldBell := true }
  else s.setMb h { m with accepted := m.accepted ++ [s.slotCmd h v], expect := m.expect + 1, heldBell := false }

/-- A doorbell that was held is taken up as soon as it can be (R338, R465). -/
def State.heldDoorbell (s : State) (h : Nat) : State :=
  let m := s.mb h
  if m.heldBell then (s.setMb h { m with heldBell := false }).doorbell h m.expect else s

/-- MB_DOORBELL: in LOCKDOWN it is dropped (R325, R451). -/
def execMbDoorbell (h : HostId) (v : BitVec 32) (s : State) : Res :=
  if s.alive then .next (s.doorbell h v) else .next s

/-! ## Starting a command (R340, R345, R346, R350) -/

/-- Checks 1 to 4 of R345: the status and CAUSE of the first that fails. -/
def precheck (s : State) (h : Nat) (c : Cmd) : Option (BitVec 8 × BitVec 16) :=
  let k := c.code.toNat
  match argFields s c with
  | none => some (stBadArg, 4)
  | some fs =>
    match argsFault c fs 0 7 with
    | some off => some (stBadArg, off)
    | none =>
      if h = 4 ∧ ¬ h4Codes.contains k then some (stDenied, 0)
      else if ¬ served s.serveMode c then some (stNotReady, 0)
      else if ownerCodes.contains k ∧ h ≠ s.pwr.owner ∧ ¬ (h = 4 ∧ h4Codes.contains k) then some (stDenied, 0)
      else none

/-! ## Read pointers and the vector mask (R342, R347, R327) -/

/-- Host software moves RSP_READ_SEQ. -/
def State.rspRead (s : State) (h : Nat) (v : BitVec 32) : State :=
  let m := s.mb h
  if (v - m.rspR).toNat ≤ m.rspUsed then
    let s := s.setMb h { m with rspR := v }
    let s := if v ≠ m.rspW ∧ ¬ m.irqMask.getLsbD 0 then s.msi h 0 else s
    s.flushRsp h m.waiting
  else s.setMb h { m with ignored := satInc m.ignored }

/-- Host software moves EVT_READ_SEQ. -/
def State.evtRead (s : State) (h : Nat) (v : BitVec 32) : State :=
  let m := s.mb h
  if (v - m.evR).toNat ≤ m.evUsed then
    let s := s.setMb h { m with evR := v }
    let s := if v ≠ m.evW ∧ ¬ m.irqMask.getLsbD 1 then s.msi h 1 else s
    s.flushLost h
  else s.setMb h { m with ignored := satInc m.ignored }

/-- Host software writes MB_IRQ_MASK: unmasking a vector while its ring holds unread slots sends it once (R327). -/
def State.irqMaskWrite (s : State) (h : Nat) (v : BitVec 32) : State :=
  let m := s.mb h
  let s := s.setMb h { m with irqMask := v.setWidth 2 }
  let s := if m.irqMask.getLsbD 0 ∧ ¬ v.getLsbD 0 ∧ m.rspW ≠ m.rspR then s.msi h 0 else s
  if m.irqMask.getLsbD 1 ∧ ¬ v.getLsbD 1 ∧ m.evW ≠ m.evR then s.msi h 1 else s

def execRspReadSeqWrite (h : HostId) (v : BitVec 32) (s : State) : Res :=
  if s.alive then .next (s.rspRead h v) else .next s

def execEvtReadSeqWrite (h : HostId) (v : BitVec 32) (s : State) : Res :=
  if s.alive then .next (s.evtRead h v) else .next s

def execMbIrqMaskWrite (h : HostId) (v : BitVec 32) (s : State) : Res :=
  if s.alive then .next (s.irqMaskWrite h v) else .next s

/-! ## DENIED windows (R442) -/

/-- The 1 ms window of a requester and resource kind ends: one event when it counted a refusal, and a new window. -/
def execDeniedWindowEnd (kind index res : Nat) (s : State) : Res :=
  match s.wrd.windows.find? fun w => w.1 = kind && w.2.1 = index && w.2.2.1 = res with
  | none => .next s
  | some w =>
    let rest := s.wrd.windows.filter fun v => !(v.1 = kind && v.2.1 = index && v.2.2.1 = res)
    if w.2.2.2.1 = 0 then .next { s with wrd.windows := rest }
    else
      let s := s.eventAt [s.pwr.owner] 0x0201 (deniedDetail w.2.2.2.1 kind index res w.2.2.2.2) s.tl.now
      .next { s with wrd.windows := rest ++ [(kind, index, res, 0, w.2.2.2.2)] }

/-! ## Group 0x01 (R353) -/

/-- DEVICE_QUERY: RES0 ID_DEVICE, RES1 ID_STATUS, RES2 TL_STATUS. -/
def execDeviceQuery (h : HostId) (s : State) : Res :=
  runCmd h 0x0101 anyCmd (fun s _ _ => { s := s, res := [s.idDevice, s.idStatus, s.tlStatus] }) s

/-- NOP. -/
def execNop (h : HostId) (s : State) : Res := runCmd h 0x0102 anyCmd (fun s _ _ => { s := s }) s

/-- DEVICE_RESET: the reset follows the response by 1 ms (DELAYED_DEVICE_RESET). -/
def execDeviceReset (h : HostId) (s : State) : Res :=
  runCmd h 0x0103 anyCmd (fun s _ _ => { s := { s with wrd.resetDue := true } }) s

/-- EVENT_MASK_SET: bit g masks group 0x0g; RES0 the previous mask. -/
def execEventMaskSet (h : HostId) (s : State) : Res :=
  runCmd h 0x0104 anyCmd (fun s h c =>
    let m := s.mb h
    { s := (s.setMb h { m with evMask := BitVec.ofNat 12 (c.f 0 1 11 * 2) }).flushLost h, res := [m.evMask.toNat] }) s

end Sys2Proof.Machine
end

