-- ==== Sys2Proof/Machine/Start.lean ====
section
/-! DEFINITION. Starting a mailbox command: the resources it names, the commands it waits for (R340, R345, R350, spec/16). -/

namespace Sys2Proof.Machine

/-- What the parameter block of FLOW_CREATE names: buffers, ports, the descriptor queue or the frame grid. -/
def Ctx.resources (x : Ctx) (n : Nat) : List (Nat × Nat) :=
  let port : Nat → Nat × Nat := fun p => (11, if x.kind = 5 then 32 + p else 8 * n + p)
  x.handles.map (fun k => (3, k)) ++ [port (x.portOf false)] ++ (if x.paths then [port (x.portOf true)] else []) ++
    [if x.egress then (15, 16 + x.gridNo) else (2, x.descQ)]

/-- The resources of a command, those that only a parameter block or an image header names among them. -/
def State.resources (s : State) (h : Nat) (c : Cmd) : List (Nat × Nat) :=
  c.resources h ++
    match c.code.toNat with
    | 0x0302 => (s.imageTargets (c.recoatJob h)).map fun m => (0, m)
    | 0x0501 =>
      match (readBlock s h c 1 152).2 with
      | .ok b => ({ prm := words64 b 19 } : Ctx).resources (c.f 0 0 2)
      | .error _ => []
    | _ => []

/-- The commands of a host that have no first response yet: written, that is, to its ring (R342). -/
def Mbox.unanswered (m : Mbox) : List Cmd :=
  m.running.toList ++ (if m.waiting.any fun r => r.first then m.owed.toList else []) ++ m.accepted

/-- Another host has a command that names one of the same resources, was accepted earlier (or at the same tick by a lower
host) and has no first response yet (R350). -/
def State.blocked (s : State) (h : Nat) (c : Cmd) : Bool :=
  (List.range 5).any fun g =>
    g ≠ h && (s.mb g).unanswered.any fun d =>
      (d.at_ < c.at_ || (d.at_ = c.at_ && g < h)) && (s.resources g d).any fun r => (s.resources h c).contains r

/-- COMMAND_START: the warden starts the next accepted command of a host once the previous one's first response is
written, and answers it at once when a general check fails. A held doorbell is accepted as the command starts. -/
def execCommandStart (h : HostId) (s : State) : Res :=
  let m := s.mb h
  match m.accepted with
  | [] => .next s
  | c :: rest =>
    if s.alive ∧ ¬ s.wrd.halted ∧ m.running = none ∧ m.waiting = [] ∧ ¬ s.blocked h c then
      let s := (s.setMb h { m with accepted := rest, running := some c }).heldDoorbell h
      match precheck s h c with
      | none => .next s
      | some (st, cause) =>
        if st = stDenied then .next (State.reply h c (Ans.denied s h c))
        else .next (State.reply h c { s := s, status := st, cause := cause })
    else .next s

end Sys2Proof.Machine
end

