-- ==== Sys2Proof/Machine/Recoat.lean ====
section
/-! DEFINITION. The recoat swap, scrubbing and readback (spec/18_recoat_and_scrubbing.md). -/

namespace Sys2Proof.Machine

/-! ## MEADOW_QUERY, SCRUB_QUERY, SCRUB_CONTROL (R389, R396) -/

/-- The scrubbers work: not in BOOT, LOAD, HOLD and LOCKDOWN (R393). -/
def State.scrubs (s : State) : Bool := s.running && s.pwr.entering.isNone

/-- The readback that runs in a heath: the oldest (R394). -/
def State.readbackOf (s : State) (h : Nat) : Option Readback := s.ldr.readback.find? fun r => r.meadow / 48 = h

/-- A readback runs on the meadow. -/
def State.readsBack (s : State) (m : Nat) : Bool := match s.readbackOf (m / 48) with | some r => r.meadow = m | none => false

def Undercoat.code : Undercoat → Nat
  | .empty => 0 | .loading => 1 | .verified => 2 | .previous => 3

def ColState.code : ColState → Nat
  | .on => 0 | .retention => 1 | .off => 2

/-- RES0 of MEADOW_QUERY. -/
def State.meadowStatus (s : State) (m : Nat) : Nat :=
  let x := s.mea m
  let scrub := if ¬ s.scrubs then 3 else if s.readsBack m then 2 else if x.scrubPause then 1 else 0
  let store := if x.live.noStore then 1 else if x.live.storeBad then 2 else 0
  pack [(bit x.world, 55), (x.ucState.code, 52), (bit x.masked, 51), (bit (s.swapArmed m), 50), (scrub, 48), (x.col.code, 46),
    (store, 44), (x.swaps.toNat, 16), (x.live.faulty.length, 0)]

def execMeadowQuery (h : HostId) (s : State) : Res :=
  runCmd h 0x0304 anyCmd (fun s _ c => { s := s, res := [s.meadowStatus (c.f 0 0 8)] }) s

/-- The meadows a SCRUB_CONTROL names: one, or those of a heath. -/
def scrubNames (c : Cmd) : List Nat :=
  if c.f 0 15 1 = 1 then (List.range 48).map (48 * c.f 0 8 2 + ·) else [c.f 0 0 8]

def scrubSet (pause : Bool) (s : State) (_ : Nat) (c : Cmd) : Ans :=
  let ms := scrubNames c
  if ms.all fun m => (s.mea m).scrubPause = pause then .ignored s
  else { s := each ms (fun m s => s.updMea m fun x => { x with scrubPause := pause }) s }

/-- SCRUB_CONTROL, pausing. -/
def execScrubControl (h : HostId) (s : State) : Res := runCmd h 0x0A01 (fun c => c.f 0 16 1 = 1) (scrubSet true) s

/-- SCRUB_CONTROL, resuming. -/
def execScrubControlResume (h : HostId) (s : State) : Res := runCmd h 0x0A01 (fun c => c.f 0 16 1 = 0) (scrubSet false) s

/-- SCRUB_QUERY: passes; last pass time in us; repairs and faults. -/
def execScrubQuery (h : HostId) (s : State) : Res :=
  runCmd h 0x0A02 anyCmd (fun s _ c =>
    let x := s.scrub (c.f 0 0 2)
    { s := s, res := [x.passes.toNat, x.passUs, pack [(x.ecc.toNat, 32), (x.stored.toNat, 16), (x.faults.toNat, 0)]] }) s

/-! ## The swap (R384-R388) -/

/-- The value that each outbound crossing presents under masking, from the live plane's MASK_MODE: the value it carries now,
zeros or ones (R85). -/
def State.maskOut (s : State) (m : Nat) : Tab (BitVec 16) :=
  let p := (s.mea m).live.pers
  each p.crossed (fun c t =>
    let mode := (p.crossings.get {} c.key).mask
    t.set 0 c.key (if mode = 1 then 0 else if mode = 2 then (if c.word then 0xFFFF else 1) else s.crossOut s.fabNet m c)) {}

/-- CUE_RECOAT_SWAP: the launch at T, step 1. DESIGN CHOICE (log 25): a launch that meets a swap of the meadow still in progress does
nothing; of two adjoining meadows masked at one tick, the second command captures what the first one's boundary already shows, where a
path bypasses the registers. -/
def execCueRecoatSwap (k : CueKey) (s : State) : Res :=
  .next (s.launch k 0x0301 false fun s c handle =>
    let m := c.target
    let x := s.mea m
    if x.masked then (if c.notify then s.cueDone c.host handle c.launch else s)
    else ((s.holdPins m).setMea m { x with
      masked := true, xout := s.maskOut m, swapT := some (c.launch, c.host, BitVec.ofNat 32 handle, c.notify)
      gate := { x.gate with ready := false } }).settleFab (m / 48))

/-- Response beats of 32 bytes that the meadow's gate still owes the live plane, one for a response without data (R385). A response is
delivered whole (log 25). -/
def State.beatsDue (s : State) (m : Nat) : Nat :=
  ((s.hg.resp.filter fun r => r.who = ⟨3, m⟩).map fun r => max 1 ((r.data.length + 31) / 32)).sum

/-- Step 2 and 3 are over: what the old plane's gate had open ends, its undelivered beats are discarded (R208, R214, R385). -/
def State.swapGate (s : State) (m : Nat) : State :=
  let s := (s.endTargets (s.mea m).gate.target hsTimeout).gateLeaves m
  let s := s.updMea m fun x => { x with gate := { x.gate with
    tags := [], wtags := [], outq := [], target := [], parts := [], rsp := none } }
  { s with hg.resp := s.hg.resp.filter fun r => r.who ≠ ⟨3, m⟩, hg.wait := s.hg.wait.filter fun w => w.1 ≠ ⟨3, m⟩ }

/-- A queue's definition (R107): its fields, and the MODE and the width of its block. -/
def SkimCfg.queueDef (c : SkimCfg) (i : Nat) : QueueCfg × Bool × BitVec 2 := (c.queue i, c.queueMode, c.qwWidth)

/-- The rows of a skim block that leaves queue mode hold what the controller's own layout left there: free bytes (R130; log 13). -/
def State.leaveQueueRows (s : State) (blk : Nat) : State :=
  let (d, s) := s.drawBytes 1024
  { s with mem.skim := s.mem.skim.writeN (8192 * blk) d }

/-- Queue definitions change with the planes (R130): those of a block that is a queue controller in either of them, its eight
queues each, enabled or not. DEDUCED (log 25): a block in memory mode in both has no queue. -/
def State.swapQueues (s : State) (m : Nat) (old new : Personality) : State :=
  let ks := ((old.skims.ents ++ new.skims.ents).filterMap fun e => if e.2.queueMode then some e.1 else none).dedup
  each ks (fun k s =>
    let a := old.skims.get {} k
    let b := new.skims.get {} k
    let s := if a.queueMode ∧ ¬ b.queueMode then s.leaveQueueRows (64 * m + k) else s
    each (List.range 8) (fun i s =>
      if a.queueDef i = b.queueDef i then s
      else s.redefine (8 * (64 * m + k) + i) (b.queue i) (b.enabled i) cRecoatRedefined) s) s

/-- A new personality without a gate clock disarms the meadow's FABRIC_EVENT cues and discards the events held (R507). -/
def State.swapEvents (s : State) (m : Nat) : State :=
  let g := (s.mea m).gate
  if (s.mea m).live.pers.gateClk ≠ 0 then s
  else
    let s := s.disarmAll cRecoatRedefined fun c => c.action = 0x0302 && c.target = m
    let s := each g.events (fun e s => s.disarmedEvent e.2.1 cFabricEventLost e.2.2.toNat) s
    s.updMea m fun x => { x with gate := { x.gate with events := [] } }

/-- A check-bit error stands in frame `f` (R376, R395). -/
def Plane.upsetAt (p : Plane) (f : Nat) : Bool := decide (p.flips.get 0 f ≠ 0) || decide (p.checks.get 0 f ≠ 0)

/-- `n` frames of a readback are read from the live plane and written to its destination. -/
def State.readFrames (s : State) (r : Readback) : Nat → State × Readback
  | 0 => (s, r)
  | n + 1 =>
    let f := r.first + r.done
    let g := s.bufPut (forCommand r.cmd.host r.world) r.handle (r.off + 512 * r.done)
      (leBytes 512 ((s.mea r.meadow).live.frames.get 0 f).toNat)
    g.s.readFrames { r with
      done := r.done + 1, written := if g.st = hsOk then r.written + 1 else r.written
      ecc := if (s.mea r.meadow).live.upsetAt f then f :: r.ecc else r.ecc } n

/-- A swap falls within the readback of a meadow: the frames read before S come from the old plane; how many is free (R395). -/
def State.swapReadback (s : State) (m : Nat) : State :=
  match s.readbackOf (m / 48) with
  | none => s
  | some r =>
    if r.meadow ≠ m then s
    else
      let (v, s) := s.draw
      let (s, q) := s.readFrames r (v.toNat % (r.count - r.done + 1))
      let q := if q.done < q.count ∧ q.newFrom = none then { q with newFrom := some (q.first + q.done) } else q
      { s with ldr.readback := s.ldr.readback.replace r q }

/-- A repair that has begun completes into the plane in which its error was found (R393). -/
def Scrubber.swapped (c : Scrubber) (m : Nat) : Scrubber :=
  { c with rebuild := c.rebuild.map fun r => if r.1 = m then (r.1, r.2.1, !r.2.2.1, r.2.2.2) else r }

def State.updScrub (s : State) (h : Nat) (f : Scrubber → Scrubber) : State := s.setScrub h (f (s.scrub h))

/-- The scrubber of a heath passes over a meadow: paused by command or by a readback that runs (R389, R394). -/
def State.scrubSkips (s : State) (m : Nat) : Bool := (s.mea m).scrubPause || s.readsBack m

/-- The meadow of heath `h` that the scrubber reads next in this pass, from number `i` on. -/
def State.scrubNext (s : State) (h i : Nat) : Option Nat :=
  ((List.range 48).filter fun k => i ≤ k).find? fun k => !s.scrubSkips (48 * h + k)

/-- A pass over the live planes ends: its count, its time, the undercoat turn. -/
def State.passEnd (s : State) (h : Nat) : State :=
  s.updScrub h fun c =>
    let c := c.stopped s.tl.now
    { c with meadow := 0, turn := true, passes := satInc c.passes, passRan := 0, passUs := c.passRan / (1000 * nsU) }

/-- The scrubber goes on behind meadow number `k`. -/
def State.scrubLeaves (s : State) (h k : Nat) : State :=
  match s.scrubNext h (k + 1) with
  | some j => s.updScrub h fun c => { c with meadow := j }
  | none => s.passEnd h

/-- The scrubber's work on a meadow at S: it leaves a meadow in which it stands, to start it at frame 0 on its next visit (R352,
R393). -/
def State.scrubSwapped (s : State) (m : Nat) : State :=
  let s := s.updScrub (m / 48) fun c => c.swapped m
  let c := s.scrub (m / 48)
  if c.meadow = m % 48 ∧ ¬ c.turn then s.scrubLeaves (m / 48) (m % 48) else s

/-- A heritage unit whose HB_FABRIC changes is flushed and returns to its reset values; the flash array keeps its data (R482). -/
def State.swapHeritage (s : State) (changed : BitVec 9) : State :=
  let s := each ((List.range 8).filter fun k => changed.getLsbD k) (fun k s => s.setSerial k {}) s
  if changed.getLsbD 8 then
    { s with io := { s.io with ufBuf := {}, ufBank := 0, ufPage := 0, ufDone := false, ufErr := false, ufWorn := false } }
  else s

/-- Step 4 at S: the planes exchange, and everything that follows from it. -/
def State.swapEdge (s : State) (m : Nat) (forced : Bool) : State :=
  let x := s.mea m
  match x.swapT with
  | none => s
  | some (t, host, handle, notify) =>
    let drop := min (s.beatsDue m) 65535
    let s := (s.swapReadback m).swapGate m
    let s := s.updMea m fun x => ({ x with
      live := x.under, under := x.live, ucState := .previous, swapT := none, swapped := true, frst := true, scrubAt := 0
      swaps := satInc x.swaps }).seeded
    let s := s.swapQueues m x.live.pers x.under.pers
    let s := (s.swapEvents m).initPins m
    let s := if m = 47 then s.swapHeritage (x.live.pers.hbFabric ^^^ x.under.pers.hbFabric) else s
    let s := s.scrubSwapped m
    let s := s.settleFab (m / 48)
    let d := BitVec.ofNat 96 (pack [(drop, 16), (bit forced, 8), (m, 0)])
    let s := s.eventAt (s.pwr.owner :: x.under.issuer.toList) 0x0303 d s.tl.now
    if notify then s.cueDone host handle.toNat t else s

/-- The heath of the meadow has reached T + `ns`. -/
def State.swapDue (s : State) (m ns : Nat) : Bool :=
  match (s.mea m).swapT with | some (t, _) => decide (t + ns * nsU ≤ s.heathNow (m / 48)) | none => false

/-- The live plane's swap clock, a meadow tap, gives edges (R383). -/
def State.swapClockRuns (s : State) (m : Nat) : Bool :=
  let c := (s.mea m).live.pers.swapClk
  decide (5 ≤ c.toNat) && s.netRuns m c

/-- RECOAT_SWAP_EDGE: the first active edge of the swap clock after T + 12,000 ns, within 1 us more (R384, R386). -/
def execRecoatSwapEdge (m : MeadowId) (s : State) : Res :=
  if s.running ∧ s.swapClockRuns m ∧ s.swapDue m 12000 ∧ ¬ s.swapDue m 13000 then .next (s.swapEdge m false) else .next s

/-- SWAP_FORCED: the selected clock has given no edge within 1 us more, or the swap would have been made (R386). -/
def execSwapForced (m : MeadowId) (s : State) : Res :=
  if s.running ∧ s.swapDue m 13000 then .next (s.swapEdge m true) else .next s

/-- The full credits of every producer slot that names the gate are announced on hg_credit (R214). -/
def State.announceGate (s : State) (m : Nat) : State :=
  each s.que.q.keys (fun q s =>
    each [1, 2, 3] (fun i s =>
      let sl := (s.queue q).slot i
      if sl.src = srcCode 3 m then s.updQueue q fun x => x.setSlot i { sl with due := sl.held } else s) s) s

/-- MASKING_RELEASE: step 6, at the fourth edge after S. Held requests are served in arrival order; a personality without a
gate clock ends them with ERROR (R211). -/
def execMaskingRelease (m : MeadowId) (s : State) : Res :=
  let x := s.mea m
  if x.masked ∧ x.swapped ∧ s.running then
    let held := x.gate.held
    let s := s.setMea m { x with
      masked := false, swapped := false, frst := false, gate := { x.gate with held := [], ready := true } }
    let s := s.settleFab (m.val / 48)
    let s := each ((s.meadowQueues m).map (·.1)) (fun q s => s.announceFabric q) (s.announceGate m)
    if x.live.pers.gateClk = 0 then .next (s.endTargets held hsError)
    else
      .next (each held (fun q s =>
        (s.updMea m fun y => { y with gate := { y.gate with target := y.gate.target ++ [q] } }).emit
          (.target m q.write q.off q.world q.peek)) s)
  else .next s

/-! ## Faults and repairs (R390, R391) -/

def State.updPlane (s : State) (m : Nat) (under : Bool) (f : Plane → Plane) : State :=
  s.updMea m fun x => x.setPlane under (f (x.plane under))

/-- A frame cannot be repaired: SCRUB_FAULT, once until it is repaired or replaced. -/
def State.scrubFault (s : State) (m f : Nat) (under : Bool) (cause cls : Nat) : State :=
  if ((s.mea m).plane under).faulty.contains f then s
  else
    let s := s.updPlane m under fun p => { p with faulty := f :: p.faulty }
    let s := s.updScrub (m / 48) fun c => { c with faults := satInc c.faults }
    s.eventAt [s.pwr.owner] 0x0A02 (scrubDetail cause 0 cls under f m) s.tl.now

/-- A frame has been repaired: SCRUB_REPAIRED with its method. -/
def State.scrubRepaired (s : State) (m f : Nat) (under : Bool) (method cls : Nat) : State :=
  let s := s.updPlane m under fun p => { p with faulty := p.faulty.erase f }
  let s := s.updScrub (m / 48) fun c =>
    if method = 0 then { c with ecc := satInc c.ecc } else { c with stored := satInc c.stored }
  s.eventAt [s.pwr.owner] 0x0A01 (scrubDetail 0 method cls under f m) s.tl.now

/-- CLASS of an error in the given words (R390). An error that no word's check bits locate counts as BENIGN: DEDUCED (log 25). -/
def scrubClass (e : SigEntry) (r : FrameRead) : Nat :=
  if r.entryBad then 2 else if (r.single ++ r.uncorr).any fun w => e.essmap.getLsbD w.val then 1 else 0

/-- Bytes of an image store. -/
def State.storeRead (s : State) (hd off n : Nat) : State × Option (List Byte) :=
  let g := s.bufRead wardenAsker hd off n
  (g.s, if g.st = hsOk then some g.data else none)

/-- A stored block as it is plain, without its authentication. -/
def plainBlock (key : Option (BitVec 256)) (x : Header) (k : Nat) (raw : List Byte) : Option (List Byte) :=
  openBlock key x (Config.sha384 raw) k raw

/-- The digest that block `k` of a stored image must have: the header's, or NEXT_DIGEST of the block before it (R362). -/
def State.storeDigest (s : State) (hd : Nat) (x : Header) (k : Nat) : State × Option (List Byte) :=
  if k = 0 then (s, some x.digest)
  else
    match s.storeRead hd (512 + 65536 * (k - 1)) 65536 with
    | (s, some raw) => (s, (plainBlock (s.loadKey x.keySrc) x (k - 1) raw).map fun p => bytesAt p 65472 48)
    | (s, none) => (s, none)

/-- The frame of a table entry rebuilt from its store, a frame of zeros for SRC 2 (R391); none when the store cannot give the block
that the entry names, or the block does not authenticate. -/
def State.storeFrame (s : State) (hd : Nat) (e : SigEntry) : State × Option (List Byte) :=
  let k := e.block.toNat
  match s.storeRead hd 0 512 with
  | (s, none) => (s, none)
  | (s, some l) =>
    let x := parseHeader l
    match s.storeDigest hd x k with
    | (s, none) => (s, none)
    | (s, some dg) =>
      match s.storeRead hd (512 + 65536 * k) 65536 with
      | (s, none) => (s, none)
      | (s, some raw) =>
        (s, (openBlock (s.loadKey x.keySrc) x dg k raw).map fun p =>
          if e.src = 2 then List.replicate 512 0 else bytesAt p (8 * e.offset.toNat) 512)

/-- Rebuild frame `f` of a plane: repaired (true), or at fault (false). Of an unusable entry (class 2) there is no CRC to check;
where the rebuilt frame is the one that stands, only the entry is rewritten (R390). -/
def State.rebuildFrame (s : State) (m f : Nat) (under : Bool) (cls : Nat) (writeOk : Bool) : State × Bool :=
  let p := (s.mea m).plane under
  let e := p.sigs.get {} f
  match p.store with
  | none => (s.scrubFault m f under (if cls = 2 then 3 else 1) cls, false)
  | some hd =>
    match s.storeFrame hd e with
    | (s, some d) =>
      let s := s.updPlane m under fun p => { p with storeBad := false }
      if cls ≠ 2 ∧ crc32 d ≠ e.crc then (s.scrubFault m f under 2 cls, false)
      else if ¬ writeOk then (s.scrubFault m f under 4 cls, false)
      else
        let v := BitVec.ofNat 4096 (leNat d)
        let s := (s.updPlane m under fun p => { p.rewrite f v with sigs := p.sigs.upd {} f fun e => { e with crc := crc32 d, bad := false } }).settleAll
        if cls = 2 ∧ p.frames.get 0 f = v then (s.updPlane m under fun p => { p with faulty := p.faulty.erase f }, true)
        else (s.scrubRepaired m f under 1 cls, true)
    | (s, none) =>
      let s := s.updPlane m under fun p => { p with storeBad := true }
      (s.scrubFault m f under 2 cls, false)

/-- Errors of word `w` of frame `f`: upset data bits and upset check bits (R376). -/
def Plane.wordErrors (p : Plane) (f : Nat) (w : Fin 64) : Nat :=
  (List.range 64).countP (fun i => (p.flips.get 0 f).getLsbD (64 * w.val + i)) +
    (List.range 8).countP fun i => (p.checks.get 0 f).getLsbD (8 * w.val + i)

/-- Bits `i` of the words of a list, of 8 check bits each. -/
def checkMask (l : List (Fin 64)) (i : Nat) : BitVec 512 :=
  l.foldl (fun v w => v ||| BitVec.ofNat 512 (2 ^ (8 * w.val + i))) 0

/-- What the row gives of a read is errors in check bits, one in a word corrected and two in one that is not, and the state of the
table entry: it stands from then on (R376, R381; log 25). -/
def Plane.noteRead (p : Plane) (f : Nat) (r : FrameRead) : Plane :=
  p.upsetChecks f ((p.checks.get 0 f ||| checkMask r.single 0 ||| checkMask r.uncorr 0 ||| checkMask r.uncorr 1) ^^^ p.checks.get 0 f)
    r.entryBad

/-- What a read of a frame finds (R390): a word with one error is corrected, one with more is not. -/
def Plane.found (p : Plane) (f : Nat) (r : FrameRead) : FrameRead :=
  let n := if p.upsetAt f then p.wordErrors f else fun _ => 0
  let ws := if p.upsetAt f then List.finRange 64 else []
  { r with single := ws.filter fun w => n w = 1, uncorr := ws.filter fun w => decide (2 ≤ n w), entryBad := (p.sigs.get {} f).bad }

/-- A read that finds nothing. -/
def cleanRead : FrameRead := { single := [], uncorr := [], crcOk := true, writeOk := true, entryBad := false }

/-- What a read finds asks for: nothing, a correction written back, or a rebuild (R390). -/
inductive ScrubWork where
  | clean | correct | rebuild
deriving DecidableEq, Repr

def scrubWork (r : FrameRead) : ScrubWork :=
  if r.entryBad ∨ r.uncorr ≠ [] ∨ ¬ r.crcOk then .rebuild else if r.single ≠ [] then .correct else .clean

/-- A frame whose check bits correct it: repaired (true) or at fault (false). -/
def State.correctFrame (s : State) (m f : Nat) (under : Bool) (cls : Nat) (writeOk : Bool) : State × Bool :=
  if writeOk then
    let s := (s.updPlane m under fun p => p.rewrite f (p.frames.get 0 f ^^^ p.flips.get 0 f)).settleAll
    (s.scrubRepaired m f under 0 cls, true)
  else (s.scrubFault m f under 4 cls, false)

/-! ## The walk (R389, R392, R393) -/

/-- The scrubber goes on behind frame `f` of meadow number `k`. -/
def State.scrubStep (s : State) (h k f : Nat) : State :=
  let m := 48 * h + k
  if f < 3071 then (s.updMea m fun x => { x with scrubAt := f + 1 }).updScrub h fun c => { c with meadow := k }
  else
    (s.updMea m fun x => { x with scrubAt := 0 }).scrubLeaves h k

/-- SCRUB_FRAME_READ: the scrubber of a heath reads its next frame and finds `r` in it. -/
def execScrubFrameRead (hh : HeathId) (r : FrameRead) (s : State) : Res :=
  let c := s.scrub hh
  if ¬ s.scrubs ∨ c.turn ∨ c.rebuild.isSome then .next s
  else
    match s.scrubNext hh c.meadow with
    | none => if c.meadow = 0 then .next s else .next (s.passEnd hh)
    | some k =>
      let m := 48 * hh.val + k
      let f := (s.mea m).scrubAt
      let s := s.updPlane m false fun p => p.noteRead f r
      let r := (s.mea m).live.found f r
      let cls := scrubClass ((s.mea m).live.sigs.get {} f) r
      let s := (s.updScrub hh fun c => { c with passStart := some (c.passStart.getD s.tl.now) }).scrubStep hh k f
      match scrubWork r with
      | .clean => .next s
      | .correct => .next (s.correctFrame m f false cls r.writeOk).1
      | .rebuild => .next (s.updScrub hh fun c => { c with rebuild := some (m, f, false, BitVec.ofNat 3 cls) })

/-- SCRUB_STORE_REBUILD: the frame that awaits it is rebuilt, written and verified. -/
def execScrubStoreRebuild (hh : HeathId) (verified : Bool) (s : State) : Res :=
  let c := s.scrub hh
  match c.rebuild with
  | none => .next s
  | some (m, f, under, cls) =>
    if ¬ s.scrubs then .next s
    else .next ((s.setScrub hh { c with rebuild := none }).rebuildFrame m f under cls.toNat verified).1

/-- The launch time of the RECOAT_SWAP cue armed on a meadow. -/
def State.swapLaunch (s : State) (m : Nat) : Option Nat :=
  ((s.tl.cues.ents.filter fun e => e.2.armed && e.2.action = 0x0301 && e.2.target = m).map fun e => e.2.launch).foldl
    (fun a t => match a with | none => some t | some u => some (min t u)) none

/-- The undercoat that a heath's turn checks: first those with an armed swap, in order of launch time, then the others in
meadow order behind the last one checked (R392). The scrubber pauses on a meadow that is being read back (R394). -/
def State.turnMeadow (s : State) (h : Nat) : Option Nat :=
  let ok := fun k => let u := (s.mea (48 * h + k)).ucState; (u = .verified || u = .previous) && !s.readsBack (48 * h + k)
  let ks := (List.range 48).filter ok
  let armed := ks.filterMap fun k => (s.swapLaunch (48 * h + k)).map fun t => (t, k)
  match armed.foldl (fun (a : Option (Nat × Nat)) e => match a with | none => some e | some b => if e.1 < b.1 then some e else some b) none with
  | some (_, k) => some k
  | none => (((List.range 48).map fun i => ((s.scrub h).lastUnder + 1 + i) % 48).find? fun k => ks.contains k)

/-- Frames of a plane in which an upset stands, of its table entry among them. -/
def Plane.upsetFrames (p : Plane) : List Nat :=
  (p.flips.keys ++ p.checks.keys ++ (p.sigs.ents.filter fun e => e.2.bad).map (·.1)).dedup

/-- One frame of an undercoat is read: the faults it meets are repaired, or the check fails (false). -/
def State.checkUnder (s : State) (m f : Nat) (r : FrameRead) : State × Bool :=
  let s := s.updPlane m true fun p => p.noteRead f r
  let r := (s.mea m).under.found f r
  let cls := scrubClass ((s.mea m).under.sigs.get {} f) r
  match scrubWork r with
  | .clean => (s, true)
  | .correct => s.correctFrame m f true cls r.writeOk
  | .rebuild => s.rebuildFrame m f true cls r.writeOk

/-- SCRUB_UNDERCOAT_TURN: one undercoat is checked; `reads` are its frames that are not clean for another reason than an upset that
stands. An unrepairable fault before the launch of an armed swap empties the undercoat and disarms the cue; one found between T and S
is handled as in a live plane (R388). -/
def execScrubUndercoatTurn (hh : HeathId) (reads : List (Fin 3072 × FrameRead)) (s : State) : Res :=
  let c := s.scrub hh
  if ¬ s.scrubs ∨ ¬ c.turn ∨ c.rebuild.isSome then .next s
  else
    let s := s.setScrub hh { c with turn := false }
    match s.turnMeadow hh with
    | none => .next s
    | some k =>
      let m := 48 * hh.val + k
      let s := s.updScrub hh fun c => { c with lastUnder := k }
      let upset := ((s.mea m).under.upsetFrames.filter fun f => !reads.any fun e => e.1.val = f).map fun f => (f, cleanRead)
      let r := (reads.map (fun e => (e.1.val, e.2)) ++ upset).foldl (fun (a : State × Bool) e =>
        let b := a.1.checkUnder m e.1 e.2
        (b.1, a.2 && b.2)) (s, true)
      if ¬ r.2 ∧ r.1.swapArmed m ∧ (r.1.mea m).swapT.isNone then
        .next ((r.1.clearUnder m .empty).disarmAll cUndercoatFault fun c => c.action = 0x0301 && c.target = m).releaseStores
      else .next r.1

/-! ## Readback (R394, R395) -/

def configReadback (s : State) (h : Nat) (c : Cmd) : Ans :=
  let m := c.f 0 0 8
  let hd := c.f 2 0 20
  if ¬ reaches c.world (s.mea m).world then .denied s h c
  else
    match s.buf hd with
    | none => .bad s 2 0
    | some b =>
      if b.isStore ∨ ¬ reaches c.world b.world then .denied s h c
      else
        .queued { s with ldr.readback := s.ldr.readback ++ [
          { cmd := c.bg h, meadow := m, first := c.f 1 0 12, count := c.f 1 16 12, handle := hd, off := c.f 2 20 36, world := c.world }] }

def execConfigReadback (h : HostId) (s : State) : Res := runCmd h 0x0305 anyCmd configReadback s

/-- RES0 of CONFIG_READBACK. -/
def Readback.result (r : Readback) (ecc : Nat) : Nat := pack [(ecc, 32), (r.newFrom.getD 0xFFFF, 16), (r.written, 0)]

/-- CONFIG_READBACK_DONE: the oldest readback of a heath completes. `upset` gives the frames that were read with a check-bit
error, as stored. -/
def execConfigReadbackDone (hh : HeathId) (upset : List (Fin 3072 × BitVec 4096)) (s : State) : Res :=
  match s.readbackOf hh with
  | none => .next s
  | some r =>
    if ¬ s.running then .next s
    else if ¬ s.linesExist r.handle then .fault .noSuchLine
    else
      let rest := s.ldr.readback.erase r
      let (s, r) := s.readFrames r (r.count - r.done)
      let bad := upset.filter fun (u : Fin 3072 × BitVec 4096) => decide (r.first ≤ u.1.val ∧ u.1.val < r.first + r.count)
      let s := each bad (fun u s =>
        (s.bufPut (forCommand r.cmd.host r.world) r.handle (r.off + 512 * (u.1.val - r.first)) (leBytes 512 u.2.toNat)).s) s
      .next (({ s with ldr.readback := rest }).finish r.cmd stOk 0 [r.result (r.ecc.length + (bad.filter fun (u : Fin 3072 × BitVec 4096) => !r.ecc.contains u.1.val).length)])

end Sys2Proof.Machine
end

