-- ==== Sys2Proof/Machine/Clocks.lean ====
section
/-! DEFINITION. The clock unit: sources, root loop, fabric loops, global clocks, gates, measurement (spec/19_clocks.md). -/

namespace Sys2Proof.Machine

/-! ## Ready flags and the monitor (R399-R401) -/

/-- The strap settings of a crystal input are allowed: `mode` 0 crystal, 1 external, 2 house (R399). -/
def crystalAllowed (inputB : Bool) (mode fsel : Nat) : Bool :=
  match mode with
  | 0 => rng fsel 1 5
  | 1 => fsel ≤ 7
  | 2 => inputB && fsel = 0
  | _ => false

/-- `hz` lies within `ppm` of `f`. -/
def near (hz f ppm : Nat) : Bool := decide (f * (1000000 - ppm) ≤ hz * 1000000 ∧ hz * 1000000 ≤ f * (1000000 + ppm))

/-- The frequencies that lane reference pair `k` accepts, and its tolerance in ppm (R298). -/
def pairHz (k : Nat) : List Nat × Nat :=
  if ([0, 1, 9, 10] : List Nat).contains k then ([100000000], 300)
  else if ([3, 4, 6, 7] : List Nat).contains k then ([156250000, 312500000], 100)
  else ([148500000, 156250000], 100)

/-- A pair at `hz` is ready: within 8 % of an allowed frequency, and within its tolerance when the root loop is locked to a crystal
input (`exact`; R298, R400). -/
def pairFits (exact : Bool) (k hz : Nat) : Bool :=
  (pairHz k).1.any fun f => near hz f 80000 && (!exact || near hz f (pairHz k).2)

/-- The device pin of a clock-capable pin's source code: pin 14 or 30 of its bank (R398, R472). -/
def clockPin (c : Nat) : Nat := 48 * ((c - 0x40) / 2) + 14 + 16 * (c % 2)

/-- A clock-capable pin gives its level to the device: its bank's rail is good, and its standard matches the bank (R473). -/
def State.clockPinUp (s : State) (c : Nat) : Bool :=
  !s.pwr.down.contains (.vccio (Fin.ofNat 16 ((c - 0x40) / 2))) && decide ((s.pin (clockPin c)).fault ≠ some .vccio)

/-- A source that has a ready condition of its own in R400: not the taps and the loop outputs, whose flags follow. The frequencies on
pairs and pins are the board's (log 9). -/
def State.canBeReady (s : State) (c : Nat) : Bool :=
  let st := s.pwr.straps
  if c = 3 then crystalAllowed false (bit st.xaExt) st.xaSel.toNat
  else if c = 4 then crystalAllowed true st.xbMode.toNat st.xbSel.toNat
  else if rng c 0x10 0x1B then
    pairFits (s.clk.locked && (decide (s.clk.ref = 3) || decide (s.clk.ref = 4))) (c - 0x10) (Config.sourceHz c)
  else if rng c 0x40 0x5F then decide (1000000 ≤ Config.sourceHz c ∧ Config.sourceHz c ≤ 900000000) && s.clockPinUp c
  else c = 1 || c = 2 || c = 0x20 || c = 0x21

/-- A source that the monitor can declare dead: the fast oscillator, from which it runs, stops the device instead (R398). -/
def monitored (c : Nat) : Bool := rng c 2 4 || rng c 0x10 0x1B || c = 0x20 || c = 0x21 || rng c 0x40 0x5F

/-- Change every global clock. -/
def State.allGclk (s : State) (f : GClk → GClk) : State := each (List.range 64) (fun g s => s.setGclk g (f (s.gclk g))) s

/-- Change every fabric loop. -/
def State.allLoops (s : State) (f : FLoop → FLoop) : State := each (List.range 64) (fun l s => s.setFloop l (f (s.floop l))) s

/-- REF of a fabric loop. -/
def FLoop.ref (x : FLoop) : Nat := fld x.a1.toNat 0 8

/-- SOURCE_READY. Global clocks that stood low for the dead source run again; the root moves off the fast oscillator when
its preferred reference becomes ready (R404). -/
def execSourceReady (src : BitVec 8) (s : State) : Res :=
  if ¬ s.canBeReady src.toNat then .next s
  else
    let s : State := { s with clk.ready := s.clk.ready.set false src.toNat true, clk.gone := s.clk.gone.set false src.toNat false }
    -- SDI ports of the quads that a lane reference pair serves start anew (R315)
    let s := if rng src.toNat 0x10 0x1B then
        each ((List.range 32).filter fun j => sdiLane j / 8 = src.toNat - 0x10) (fun j s => s.sdiRestart j) s
      else s
    let s := s.allGclk fun x => if x.src = src then { x with stopped := false } else x
    .next (if s.clk.locked ∧ s.clk.fast ∧ src = s.clk.pref ∧ src ≠ s.clk.ref then { s with clk.move := true } else s)

/-- A fabric loop loses its reference: it holds (R408). -/
def FLoop.holds (x : FLoop) : FLoop := if x.locked then { x with locked := false, refLost := true, loss := true } else x

/-- SOURCE_DEAD: the flags, the event, the global clocks that take the source or switch to it, the loops that refer to it, and
the root loop, which holds from then on (R403). -/
def execSourceDead (src : BitVec 8) (s : State) : Res :=
  if ¬ monitored src.toNat ∨ ¬ s.alive then .next s
  else
    let s := { s with clk := { s.clk with
      ready := s.clk.ready.set false src.toNat false, dead := s.clk.dead.set false src.toNat true
      gone := s.clk.gone.set false src.toNat true
      holding := s.clk.holding || (s.clk.locked && s.clk.ref = src) } }
    let s := s.allGclk fun x => if x.src = src ∨ x.sw.any (·.1 = src) then { x with stopped := true } else x
    let s := s.allLoops fun x => if x.ref = src.toNat then x.holds else x
    .next (s.ownerEvent 0x0901 [src.toNat])

/-! ## Root loop (R402-R405) -/

/-- The root loop locks to a reference. -/
def State.rootLock (s : State) (ref : BitVec 8) : State :=
  { s with clk := { s.clk with
    ref := ref, locked := true, coast := false, fast := decide (ref = 1), holding := false, move := false, trims := 0, trimmed := false } }

/-- ROOT_LOOP_LOCK: at start-up, crystal A, then B, then the fast oscillator. -/
def execRootLoopLock (s : State) : Res :=
  if s.pwr.mode ≠ .boot ∨ s.mem.wiping ∨ s.clk.locked ∨ s.clk.coast then .next s
  else .next (s.rootLock (if s.srcReady 3 then 3 else if s.srcReady 4 then 4 else 1))

/-- COAST_TRIM: 1,000 trims of 1 ms against a crystal input make the condition of R405. -/
def execCoastTrim (s : State) : Res :=
  if s.clk.locked ∧ (s.clk.ref = 3 ∨ s.clk.ref = 4) then
    let n := min (s.clk.trims + 1) 1000
    .next { s with clk := { s.clk with trims := n, trimmed := decide (n = 1000) } }
  else .next s

/-- ROOT_REFERENCE_LOST. -/
def execRootReferenceLost (s : State) : Res := if s.clk.locked then .next { s with clk.holding := true } else .next s

/-- ROOT_COAST: after a loss of the reference, or for a move to another one. Loops on the housekeeping tap scale their
multiplier (R407) and TL_INCR changes its base (R34). -/
def execRootCoast (s : State) : Res :=
  if ¬ s.alive ∨ ¬ s.clk.locked ∨ ¬ (s.clk.holding ∨ s.clk.move) then .next s
  else
    let s := { s with clk := { s.clk with
      locked := false, coast := true, ref := 0, holding := false, move := false, coasts := satInc s.clk.coasts } }
    let s := s.allLoops fun x => if x.ref = 9 then { x with scaled := true } else x
    .next (s.rebase.allEvent 0x0902 [0])

/-- The reference that a coasting root loop relocks to: PREF, else the other crystal input. -/
def State.relockRef (s : State) : Option (BitVec 8) :=
  if s.srcReady s.clk.pref.toNat then some s.clk.pref
  else if s.clk.pref ≠ 3 ∧ s.srcReady 3 then some 3
  else if s.clk.pref ≠ 4 ∧ s.srcReady 4 then some 4
  else none

/-- ROOT_RELOCK. -/
def execRootRelock (s : State) : Res :=
  if ¬ s.alive ∨ ¬ s.clk.coast then .next s
  else
    match s.relockRef with
    | none => .next s
    | some r =>
      let s := (s.rootLock r).allLoops fun x => { x with scaled := false }
      .next (s.rebase.allEvent 0x0903 [r.toNat])

/-! ## Fabric loops (R406-R409) -/

/-- LOOP_CONFIGURE: a change of ARG2 alone keeps the lock; any other relocks. The response is OK at once. -/
def loopConfigure (s : State) (c : Cmd) : Ans :=
  let l := c.f 0 0 6
  let a1 := BitVec.ofNat 64 (c.arg 1)
  let a2 := BitVec.ofNat 64 (c.arg 2)
  let x := s.floop l
  let y : FLoop :=
    if a1 = x.a1 then { x with a2 := a2 }
    else { x with a1 := a1, a2 := a2, locked := false, refLost := false, scaled := s.clk.coast && decide (fld a1.toNat 0 8 = 9) }
  { s := s.setFloop l y }

def execLoopConfigure (h : HostId) (s : State) : Res := runCmd h 0x0905 anyCmd (fun s _ c => loopConfigure s c) s

/-- FABRIC_LOOP_LOCK: the loops are powered down in HOLD. Global clocks that stood low for one of its outputs run. -/
def execFabricLoopLock (l : LoopId) (s : State) : Res :=
  let x := s.floop l
  if x.locked ∨ x.refLost ∨ x.ref = 0 ∨ ¬ s.srcReady x.ref ∨ s.pwr.mode = .hold then .next s
  else
    let s := s.setFloop l { x with locked := true }
    .next (s.allGclk fun g => if g.stopped ∧ g.src.toNat / 2 = 0x40 + l.val ∧ s.srcReady g.src.toNat then
      { g with stopped := false } else g)

/-- FABRIC_LOOP_REF_LOST: the loop sees four missing reference edges. -/
def execFabricLoopRefLost (l : LoopId) (s : State) : Res := .next (s.setFloop l (s.floop l).holds)

/-- FABRIC_LOOP_RELOCK. -/
def execFabricLoopRelock (l : LoopId) (s : State) : Res :=
  let x := s.floop l
  if x.refLost ∧ s.srcReady x.ref then .next (s.setFloop l { x with locked := true, refLost := false }) else .next s

/-! ## Global clocks (R402, R410, R411) -/

/-- CLOCK_SWITCH of a global clock: NOT_READY, or the switch begins and answers when it completes. -/
def clockSwitch (s : State) (h : Nat) (c : Cmd) : Ans :=
  let g := c.f 0 0 8 - 0x80
  let src := c.f 0 8 8
  if src ≠ 0 ∧ ¬ s.srcReady src then .notReady s
  else { s := s.setGclk g { s.gclk g with sw := some (BitVec.ofNat 8 src, c.bg h) }, wait := true }

def execClockSwitch (h : HostId) (s : State) : Res := runCmd h 0x0903 (fun c => c.f 0 0 8 ≠ 0) clockSwitch s

/-- CLOCK_SWITCH of clock 0x00: PREF. A locked loop moves through coast when PREF changes to a source not in use (R404). -/
def clockSwitchPref (s : State) (c : Cmd) : Ans :=
  let src := c.f 0 8 8
  let v := BitVec.ofNat 8 src
  if ¬ s.srcReady src then .notReady s
  else { s := { s with clk := { s.clk with 
    pref := v, move := if v = s.clk.pref then s.clk.move else s.clk.locked && decide (v ≠ s.clk.ref) } } }

def execClockSwitchPref (h : HostId) (s : State) : Res :=
  runCmd h 0x0903 (fun c => c.f 0 0 8 = 0) (fun s _ c => clockSwitchPref s c) s

/-- CLOCK_SWITCH_COMPLETE, by the normal or the forced path: the normal one needs the old source's edges, which a dead source, none at
all, and a loop that relocks do not give (R409, R411). -/
def execClockSwitchComplete (g : GclkId) (forced : Bool) (s : State) : Res :=
  let x := s.gclk g
  match x.sw with
  | none => .next s
  | some (src, b) =>
    if ¬ forced ∧ ¬ s.gclkRuns g then .next s
    else
      let s := s.setGclk g { x with
        src := src, sw := none, forced := x.forced || forced
        stopped := decide (src = 0) || !s.srcReady src.toNat, switches := satInc x.switches }
      .next (s.replyTo b.host b.seq fun s => { s := s })

/-! ## Gates (R413-R415, R331) -/

/-- The state that host software has brought gate `g` to. -/
def State.gateOf (s : State) (g : Nat) : GateState :=
  if g ≤ 0x2FF then (s.mea (g / 4)).rclk.get .opened (g % 4)
  else if g = 0x1040 then s.clk.serial
  else if g = 0x1041 then s.clk.flash
  else (s.row (g - 0x1000)).gate

def State.setGate (s : State) (g : Nat) (x : GateState) : State :=
  if g ≤ 0x2FF then s.updMea (g / 4) fun m => { m with rclk := m.rclk.set .opened (g % 4) x }
  else if g = 0x1040 then { s with clk.serial := x }
  else if g = 0x1041 then { s with clk.flash := x }
  else s.updRow (g - 0x1000) fun r => { r with gate := x }

/-- A code of a stipple row's gate. -/
def rowGate (g : Nat) : Bool := rng g 0x1000 0x101F

/-- CLOCK_GATE: IGNORED for the state that holds or is being reached; otherwise CLOSING, and a row drains. -/
def clockGate (s : State) (h : Nat) (c : Cmd) : Ans :=
  let g := c.f 0 0 16
  if s.gateOf g ≠ .opened then .ignored s
  else
    let s := s.setGate g .closing
    if rowGate g then
      let r := g - 0x1000
      { s := (s.drainRow r).updRow r fun x => { x with gateCmd := some (c.bg h) }, wait := true }
    else { s := { s with clk.closing := s.clk.closing ++ [(g, c.bg h)] }, wait := true }

def execClockGate (h : HostId) (s : State) : Res := runCmd h 0x0904 (fun c => c.f 0 16 1 = 1) clockGate s

/-- The CLOCK_GATE commands that wait for the gate to close. -/
def State.gateCmds (s : State) (g : Nat) : List Bg :=
  if rowGate g then (s.row (g - 0x1000)).gateCmd.toList else (s.clk.closing.filter fun e => e.1 = g).map (·.2)

/-- No CLOCK_GATE waits for the gate any more; a row's settings follow its state. -/
def State.gateSettled (s : State) (g : Nat) : State :=
  let s := if rowGate g then s.updRow (g - 0x1000) fun x => ({ x with gateCmd := none } : Row).settle else s
  { s with clk.closing := s.clk.closing.filter fun e => e.1 ≠ g }

/-- CLOCK_UNGATE: opens the gate or cancels its closing; another host's CLOCK_GATE that waited for it answers OK: DESIGN
CHOICE (log 29). A row resumes dispatch. -/
def clockUngate (s : State) (h : Nat) (c : Cmd) : Ans :=
  let g := c.f 0 0 16
  if s.gateOf g = .opened then .ignored s
  else
    let cmds := (s.gateCmds g).filter fun b => b.host ≠ h
    { s := each cmds (fun b s => s.replyTo b.host b.seq fun s => { s := s }) ((s.setGate g .opened).gateSettled g) }

def execClockUngate (h : HostId) (s : State) : Res :=
  runCmd h 0x0904 (fun c => c.f 0 16 1 = 0) clockUngate s

/-- A CLOSING gate may close: a row when it has drained, the user flash when no operation is in progress. -/
def State.gateIdle (s : State) (g : Nat) : Bool :=
  if rowGate g then s.rowDrained (g - 0x1000) && !(s.row (g - 0x1000)).testing
  else if g = 0x1041 then s.io.ufOp.isNone
  else true

/-- CLOCK_GATE_CLOSED. -/
def execClockGateClosed (code : BitVec 16) (s : State) : Res :=
  let g := code.toNat
  if ¬ gateCode g ∨ s.gateOf g ≠ .closing ∨ ¬ s.gateIdle g then .next s
  else
    .next (each (s.gateCmds g) (fun b s => s.replyTo b.host b.seq fun s => { s := s }) ((s.setGate g .gated).gateSettled g))

/-! ## Measurement (R416) -/

def execFreqMeasure (h : HostId) (s : State) : Res :=
  runCmd h 0x0906 anyCmd (fun s h c =>
    { s := { s with clk.meas := s.clk.meas ++ [(BitVec.ofNat 8 (c.f 0 0 8), c.bg h)] }, wait := true }) s

/-- Hz of a source with `edges` edges in 10 ms; above 400 MHz they are counted through a divider by 16. -/
def edgesHz (edges : Nat) : Nat := if 4000000 < edges then openDiv 416 edges 16 * 1600 else edges * 100

/-- Divider of a root tap 0x05-0x09 from the root loop's oscillator (R5). -/
def tapDiv (c : Nat) : Nat := [3, 4, 6, 12, 48].getD (c - 5) 12

/-- Edges of a root tap in 10 ms of timeline time: the timeline advances by TL_INCR at every edge of the ÷12 tap, so that the
taps keep fixed rates against it, in coast too (R5, R34). -/
def State.tapEdges (s : State) (c : Nat) : Nat := openDiv 5 (12 * secU) (100 * tapDiv c * s.tl.incr.toNat)

/-- TL_INCR without an adjustment: 2.5 ns, in coast 3.0 ns (R24, R34). -/
def State.incrBase (s : State) : Nat := (incrOf s.clk.coast 0).toNat

/-- The multiplier of a fabric loop as a fraction: as configured, times 6/5 in coast when it is referenced to the housekeeping tap, and
times the servo's adjustment of TL_INCR when it is steered (R407). -/
def State.loopMult (s : State) (x : FLoop) : Nat × Nat :=
  let m := fld x.a1.toNat 16 8 * 2 ^ 24 + fld x.a1.toNat 24 24
  let steer := fld x.a2.toNat 16 1 = 1
  ((if x.scaled then 6 else 1) * (if steer then s.tl.incr.toNat else 1) * m,
    (if x.scaled then 5 else 1) * (if steer then s.incrBase else 1) * 2 ^ 24)

/-- Edges in 10 ms of timeline time of an output of a loop that is locked to the housekeeping tap: 1/4 of the edges of the timeline
clock, times the multiplier, by R and the output's divider (R5, R34, R406, R407). -/
def State.loopEdges (s : State) (c : Nat) : Nat :=
  let x := s.floop ((c - 0x80) / 2)
  let m := s.loopMult x
  openDiv 407 (secU * m.1) (400 * s.tl.incr.toNat * m.2 * (fld x.a1.toNat 8 5 + 1) * x.div (c % 2))

/-- Edges that the device itself fixes: of a root tap, of a loop locked to one. -/
def State.ownEdges (s : State) (c edges : Nat) : Nat :=
  if rng c 5 9 then s.tapEdges c
  else if 0x80 ≤ c ∧ (s.floop ((c - 0x80) / 2)).ref = 9 ∧ (s.floop ((c - 0x80) / 2)).locked then s.loopEdges c
  else edges

/-- FREQ_MEASURE_DONE: the oldest measurement of the source ends, with the edges counted where the device does not fix them; a dead
source returns 0, whatever CLK_SRC_DEAD shows. -/
def execFreqMeasureDone (src : BitVec 8) (edges : Nat) (s : State) : Res :=
  match s.clk.meas.find? fun e => e.1 = src with
  | none => .next s
  | some (_, b) =>
    let s := { s with clk.meas := s.clk.meas.eraseP fun e => e.1 = src }
    let dead := s.clk.gone.get false src.toNat
    let edges := s.ownEdges src.toNat edges
    .next (s.replyTo b.host b.seq fun s =>
      { s := s, res := [if dead then 0 else edgesHz edges, pack [(bit s.clk.coast, 1), (bit s.clk.fast, 0)]] })

end Sys2Proof.Machine
end

