-- ==== Sys2Proof/Machine/Modes.lean ====
section
/-! DEFINITION. MODE_SET and the HOLD mode (spec/20_power_resets_modes.md, R428-R433). -/

namespace Sys2Proof.Machine

/-! ## MODE_SET (R428, R429, R432) -/

/-- A time the given number of microseconds from now. -/
def State.usFrom (s : State) (us : Nat) : Nat := s.tl.now + us * 1000 * nsU

/-- Cues that launch in HOLD: TL_MARK and HOST_EVENT (R47). -/
def Cue.inHold (c : Cue) : Bool := c.action = 0x0101 || c.action = 0x0601

/-- Launch times of the armed cues that HOLD would stop. -/
def State.stoppedCues (s : State) : List Nat :=
  (s.tl.cues.ents.filter fun e => e.2.armed && !e.2.inHold).map fun e => e.2.launch

/-- The wake time of ARG1 and ARG2; none when both are zero. -/
def Cmd.wakeTime (c : Cmd) : Option Nat :=
  if c.arg 1 = 0 ∧ c.arg 2 = 0 then none else some (c.arg 1 * secU + c.arg 2 * nsU)

/-- MODE_SET with ARG0 = 3, in the order of R428. The wakes are armed 1.5 ms before the wake time and the earliest cue. -/
def modeSetHold (s : State) (h : Nat) (c : Cmd) : Ans :=
  if s.pwr.entering.isSome then { s := s, wait := true }
  else if s.pwr.mode = .hold then .ignored s
  else if s.pwr.mode ≠ .run then .bad s 0 0
  else
    let lim := s.usFrom 2500
    let soon := fun t : Nat => decide (t < lim)
    if c.wakeTime.any soon then .late s
    else if s.stoppedCues.any soon ∨ s.wrd.bg ≠ [] then .busy s
    else
      let early := s.stoppedCues.foldl (fun m t => some (match m with | none => t | some x => min x t)) (none : Option Nat)
      let wakes := (c.wakeTime.toList ++ early.toList).map fun t => t - 1500 * 1000 * nsU
      .queued { s with pwr := { s.pwr with entering := some (c.bg h), wakes := wakes } }

def execModeSetHold (h : HostId) (s : State) : Res := runCmd h 0x0901 (fun c => c.f 0 0 3 = 3) modeSetHold s

/-- A wake: the exit begins with the release of CORE_RET_REQ; one raised during the exit changes nothing. -/
def State.wake (s : State) : State :=
  if s.pwr.mode = .hold then { s with pwr := { s.pwr with exiting := true, retReq := false } } else s

/-- MODE_SET with ARG0 = 2. -/
def modeSetRun (s : State) (h : Nat) (c : Cmd) : Ans :=
  if s.pwr.entering.isSome then { s := s, wait := true }
  else if s.pwr.mode = .run then .ignored s
  else if s.pwr.mode ≠ .hold then .bad s 0 0
  else if c.arg 1 ≠ 0 then .bad s 1 0
  else if c.arg 2 ≠ 0 then .bad s 2 0
  else
    let s := s.wake
    .queued { s with pwr := { s.pwr with wakeCmds := s.pwr.wakeCmds ++ [c.bg h] } }

def execModeSetRun (h : HostId) (s : State) : Res := runCmd h 0x0901 (fun c => c.f 0 0 3 = 2) modeSetRun s

/-! ## HOLD entry (R429) -/

/-- A meadow in HOLD: its gate holds requests, an ON column is in RETENTION (R101). -/
def Meadow.enterHold (x : Meadow) : Meadow :=
  { x with gate := { x.gate with ready := false }, colHold := some x.col, col := if x.col = .on then .retention else x.col }

/-- An active pseudo-channel enters self-refresh (R238). -/
def Pch.enterHold (x : Pch) : Pch := if x.st = .active then { x with st := .selfRefresh } else x

/-- Change every pseudo-channel. -/
def State.allPch (s : State) (f : Pch → Pch) : State := each (List.range 32) (fun p s => s.updPch p f) s

/-- Every pin holds what it drives (R21, R478). -/
def State.holdAllPins (s : State) : State :=
  each (List.range 768) (fun k t => t.setPin k { t.pin k with held := s.pinDrive k }) s

/-- The host has enabled ASPM L1: PCI Express has the bit in the link control register (R319; log 27). -/
def PcieLink.aspm (x : PcieLink) : Bool := (x.cfg.get 0 (Config.capPcie + 4)).getLsbD 1

/-- A link in L0 enters L1 in HOLD when its host has enabled ASPM (R21, R429, R431). -/
def PcieLink.enterHold (x : PcieLink) : PcieLink := if x.st = 2 ∧ x.aspm then { x with st := 3 } else x

/-- A link in L1 is in L0 again. -/
def PcieLink.exitHold (x : PcieLink) : PcieLink := if x.st = 3 then { x with st := 2 } else x

/-- What came during HOLD entry happens now that HOLD is reached: a device reset, or else a wake (R429). -/
def State.afterEntry (s : State) (late : Option (BitVec 8)) (wakeN : Bool) : State :=
  match late with
  | some c => s.deviceReset c
  | none => if wakeN then s.wake else s

/-- HOLD_ENTRY_COMPLETE: steps 3 to 9, once the egress packets in progress have left. -/
def execHoldEntryComplete (s : State) : Res :=
  match s.pwr.entering with
  | none => .next s
  | some b =>
    if s.pwr.mode ≠ .run ∨ ¬ s.alive ∨ s.net.ctx.ents.any (fun e => e.2.formed ≠ []) then .next s
    else
      let s := s.holdAllPins.allMea Meadow.enterHold
      let s := each (List.range 4) (fun n s => s.setLink n (s.link n).enterHold) s
      let s := s.allPch Pch.enterHold
      let s := s.allLoops fun x => { x with locked := false }
      let s := each [0, 1, 2, 3] (fun h s => s.updScrub h fun c => c.stopped s.tl.now) s
      let wakeN := s.pwr.wakeN
      let late := s.pwr.lateReset
      let s : State := { s with pwr := { s.pwr with
        entering := none, retReq := true, coreLow := true, wakeN := false, lateReset := none } }
      .next (((s.setMode .hold).finish b stOk).afterEntry late wakeN)

/-! ## Wakes and exit (R432, R433) -/

/-- HOLD_WAKE_TIMER: an armed wake has come. -/
def execHoldWakeTimer (s : State) : Res :=
  if s.pwr.mode = .hold ∧ (s.pwr.wakes.any fun t => t ≤ s.tl.now) = true then
    let s := s.wake
    .next { s with pwr.wakes := s.pwr.wakes.filter fun t => s.tl.now < t }
  else .next s

/-- HOLD_WAKE_N_LOW, for 1 us or longer. During HOLD entry the wake waits until the device has reached HOLD (R429). -/
def execHoldWakeNLow (s : State) : Res :=
  .next (if s.pwr.entering.isSome then { s with pwr.wakeN := true } else s.wake)

/-- A meadow leaving HOLD: its column as before, its gate ready unless masked. -/
def Meadow.exitHold (x : Meadow) : Meadow :=
  { x with
    col := x.colHold.getD x.col, colHold := none
    gate := if x.masked then x.gate else { x.gate with ready := x.gate.isOpen, held := [] } }

/-- A context leaving HOLD: an ingress one is RESTARTING, an egress one goes on at the first frame that R292 allows. -/
def State.ctxExitHold (s : State) (c : Nat) : State :=
  let x := s.ctx c
  if x.st ≠ .active ∧ x.st ≠ .restarting ∧ ¬ x.starting then s
  else if ¬ x.egress then s.setCtx c x.restart
  else if x.kind = 5 then s
  else s.setCtx c { x with egFrame := s.egStart c, egPkt := 0 }

/-- One of the accesses that HOLD has held is served. After its TIMEOUT its response is discarded, and a write may or may not
take effect (R208). -/
def State.resumeOne (s : State) (q : HeldReq) : State :=
  let late := q.late || (match q.what with | .bread _ | .bwrite _ _ => !s.hg.wait.contains (q.who.requester, q.tag) | _ => false)
  match q.what with
  | .bread n =>
    let g := s.bufReadAll q.who q.handle q.off n
    if late then g.s else s.hgAnswer q.who.requester q.tag g
  | .bwrite data be =>
    let (v, s) := if late then s.draw else (1, s)
    if ¬ v.getLsbD 0 then s
    else
      let g := s.bufWriteAll q.who true q.handle q.off data be
      if late then g.s else s.hgAnswer q.who.requester q.tag { g with data := [] }
  | .bar2Read n =>
    let g := (s.bufReadAll q.who q.handle q.off n).whole n
    if late then g.s else g.s.emit (.read q.who.index g.data)
  | .bar2Write data be =>
    let (v, s) := if late then s.draw else (1, s)
    if ¬ v.getLsbD 0 then s
    else
      let g := s.apWrite q.who q.handle q.off data be
      if g.st = hsOk ∨ late then g.s else g.s.writeFailed q.who.index q.handle q.off g.st

/-- A fabric-target request that HOLD has held is presented: its world was checked as it arrived, and a change since then cuts nothing
short (R440). A gate that is closed or without a clock ends it with ERROR (R211, R213). -/
def State.resumeTarget (s : State) (m : Nat) (q : GateReq) : State :=
  if ¬ (s.mea m).gate.isOpen ∨ (s.mea m).live.pers.gateClk = 0 then s.endTargets [q] hsError else s.present m q

/-- The accesses that HOLD has held are made in order of arrival; the controllers then serve their requests, with the ages they
have reached (R233, R238). -/
def State.resumeHeld (s : State) : State :=
  let t : State := { s with hg.held := [] }
  (each s.hg.held (fun q u => u.resumeOne q) t).serveAll

/-- HOLD_EXIT_RESUME: steps 2 to 6, once VCC_CORE is good. -/
def execHoldExitResume (s : State) : Res :=
  if s.pwr.mode ≠ .hold ∨ ¬ s.pwr.exiting ∨ ¬ s.coreGood then .next s
  else
    let s := s.allLoops fun x => { x with locked := decide (x.ref ≠ 0) && !x.refLost && s.srcReady x.ref }
    let s := s.allPch fun x => if x.st = .selfRefresh then { x with st := .active } else x
    let held := (List.range 192).map fun m => (m, if (s.mea m).masked then [] else (s.mea m).gate.held)
    let s := s.allMea Meadow.exitHold
    let s := each held (fun p s => each p.2 (fun q s => s.resumeTarget p.1 q) s) s
    let s := s.resumeHeld
    let s := each (s.net.ctx.keys) (fun c s => s.ctxExitHold c) s
    let s := each (List.range 32) (fun j s => s.sdiRestart j) s
    let s := each (List.range 4) (fun n s => s.setLink n (s.link n).exitHold) s
    let cmds := s.pwr.wakeCmds
    let s : State := { s with pwr := { s.pwr with exiting := false, wakes := [], wakeCmds := [] } }
    .next (each cmds (fun b s => s.finish b stOk) (s.setMode .run))

/-- HOLD_EXIT_RAIL_TIMEOUT: VCC_CORE is not good 5 ms after the release; CAUSE 0x0001 is RAIL. -/
def execHoldExitRailTimeout (s : State) : Res :=
  if s.pwr.mode ≠ .hold ∨ ¬ s.pwr.exiting ∨ s.coreGood then .next s
  else
    let cmds := s.pwr.wakeCmds
    let s : State := { s with pwr := { s.pwr with exiting := false, wakeCmds := [] } }
    .next (each cmds (fun b s => s.finish b stFailed 1) s)

/-- HOLD_CUE_DISARM: a cue of a stopped unit comes due in HOLD. -/
def execHoldCueDisarm (k : CueKey) (s : State) : Res :=
  if s.pwr.mode = .hold ∧ s.cueDue k ∧ ¬ (s.cue k).inHold then .next (s.disarm cHoldExitFailed k) else .next s

end Sys2Proof.Machine
end

