-- ==== Sys2Proof/Machine/Worlds.lean ====
section
/-! DEFINITION. World assignments and the lifecycle (spec/21_worlds_and_lifecycle.md). -/

namespace Sys2Proof.Machine

/-! ## WORLD_SET, WORLD_QUERY (R436-R440) -/

/-- The world of target `i` of a kind of WORLD_SET; none for a target that does not exist. -/
def State.worldOf (s : State) (kind i : Nat) : Option Bool :=
  match kind with
  | 0 => some (s.mea i).world
  | 1 => if (s.ctx i).st = .free then none else some (s.ctx i).world
  | 2 => some (s.que.world.get false i)
  | 3 => some (s.row i).world
  | 4 => some (s.mea i).screedWorld
  | _ => if s.hosts.contains i then some (s.hostWorld i) else none

/-- Slots of secure queues that a host holds through its queue windows are revoked (R440). -/
def State.revokeHost (s : State) (h : Nat) : State :=
  each (s.que.q.keys.filter fun q => s.qWorld q) (fun q s =>
    each [1, 2, 3] (fun i s =>
      let x := s.queue q
      let sl := x.slot i
      let mine := fld sl.src.toNat 28 4 = 5 && (match s.que.win.get none (fld sl.src.toNat 0 28) with
        | some (w, _) => decide (w = h)
        | none => false)
      if sl.grant ≠ 0 ∧ mine then (s.setQueue q (x.setSlot i { src := sl.src })).ownerEvent 0x0202 [q, i, sl.held] else s) s) s

/-- A change of world, at the next boundary of the resource (R440): in this model the next command. -/
def State.setWorld (s : State) (kind i : Nat) (w : Bool) : State :=
  match kind with
  | 0 => s.updMea i fun x => { x with world := w }
  | 1 => s.setCtxWorld i w
  | 2 => s.setQWorld i w
  | 3 => s.setRowWorld i w
  | 4 => s.updMea i fun x => { x with screedWorld := w }
  | _ => let s := s.updMb i fun x => { x with world := w }; if w then s else s.revokeHost i

def worldSet (s : State) (c : Cmd) : Ans :=
  let kind := c.f 0 0 4
  let i := c.arg 1
  let w := c.f 0 4 1 = 1
  match s.worldOf kind i with
  | none => .bad s 1 0
  | some old =>
    if kind = 5 ∧ i = s.pwr.owner then .bad s 1 0
    else if old = w then .ignored s
    else { s := s.setWorld kind i w }

def execWorldSet (h : HostId) (s : State) : Res := runCmd h 0x0201 anyCmd (fun s _ c => worldSet s c) s

def execWorldQuery (h : HostId) (s : State) : Res :=
  runCmd h 0x0202 anyCmd (fun s _ c =>
    match s.worldOf (c.f 0 0 4) (c.arg 1) with
    | none => .bad s 1 0
    | some w => { s := s, res := [bit w] }) s

/-! ## Lifecycle (R443-R447) -/

/-- The targets that a state permits (R444). -/
def Life.targets : Life → List Life
  | .blank => [.opened, .scrapped]
  | .opened => [.sealed, .scrapped]
  | .sealed => [.returned, .scrapped]
  | .returned => [.scrapped]
  | .scrapped => []

def lifeOf (n : Nat) : Option Life := [Life.blank, .opened, .sealed, .returned, .scrapped][n]?

/-- The 64-bit word at a byte offset of a block. -/
def blockWord (b : List Byte) (off : Nat) : Nat := leNat ((b.drop off).take 8)

/-- The first field of the authorisation block out of its range, or used by no field of the transition (R445). -/
def authFault (b : List Byte) (old new : Life) : Option Nat :=
  let blank := old = .blank && new = .opened
  let sealing := old = .opened && new = .sealed
  let w40 := blockWord b 0x40
  let w48 := blockWord b 0x48
  if blockWord b 8 / 256 ≠ 0 then some 9
  else if ¬ blank ∧ (((b.drop 0x10).take 0x30).any (· ≠ 0)) = true then some 0x10
  else if fld w40 0 8 ≠ 0 then some 0x40
  else if ¬ blank ∧ fld w40 8 1 ≠ 0 then some 0x41
  else if fld w40 9 23 ≠ 0 then some 0x41
  else if ¬ blank ∧ fld w40 32 16 ≠ 0 then some 0x44
  else if ¬ blank ∧ fld w40 48 16 ≠ 0 then some 0x46
  else if (if sealing then 3 < fld w48 0 3 else fld w48 0 3 ≠ 0) then some 0x48
  else if fld w48 3 5 ≠ 0 then some 0x48
  else if ¬ sealing ∧ fld w48 8 4 ≠ 0 then some 0x49
  else if w48 / 2 ^ 12 ≠ 0 then some 0x49
  else none

/-- The block names this part and this transition, its signature verifies, and its signer is the one required (R445). -/
def State.authorised (s : State) (b : List Byte) (old new : Life) : Bool :=
  let key := (b.drop 0x50).take 0x60
  let hash := Config.sha384 key
  let signer : Bool := match old, new with
    | .blank, .opened => decide (hash = (b.drop 0x10).take 0x30)
    | .blank, _ => true
    | .opened, _ => decide (hash = s.sec.ownerHash)
    | .sealed, .returned => decide (hash = Config.returnKeyHash)
    | .sealed, _ => decide (hash = s.sec.ownerHash)
    | _, _ => decide (hash = Config.returnKeyHash)
  decide (blockWord b 0 = s.sec.serial.toNat) && decide (fld (blockWord b 8) 0 4 = new.code) &&
    decide (fld (blockWord b 8) 4 4 = old.code) && Config.ecdsaVerify key (b.take 0xB0) ((b.drop 0xB0).take 0x60) && signer

/-- Every secure region gets a fresh key (R265). -/
def State.freshSecure (s : State) : State :=
  each ((List.range 256).filter fun r => (s.region r).world) (fun r s => s.discardKey r) s

/-- LIFECYCLE_ADVANCE: QUEUED; then the block is checked, the scratchpads are wiped and the secure regions re-keyed. -/
def lifecycleAdvance (s : State) (h : Nat) (c : Cmd) : Ans :=
  let old := s.sec.life
  match lifeOf (c.f 0 0 4) with
  | none => .bad s 0 0
  | some new =>
    if new ∉ old.targets then .bad s 0 0
    else
      match readBlock s h c 1 272 with
      | (_, .error a) => a
      | (s, .ok b) =>
        match authFault b old new with
        | some off => { s := s, status := stQueued, fin := some (stBadArg, BitVec.ofNat 16 (2 ^ 15 + off)) }
        | none =>
          if s.authorised b old new then
            .queued { s.startWipe.freshSecure with sec.adv := some (c.bg h, new, b) }
          else { s := s.deny 0 h 10 0x0B03, status := stQueued, fin := some (stDenied, 0) }

def execLifecycleAdvance (h : HostId) (s : State) : Res := runCmd h 0x0B03 anyCmd lifecycleAdvance s

/-- All fuse fields that a transition programs, and then its lifecycle word (R445, R446). The state is read at the next start-up. -/
def Secure.program (x : Secure) (new : Life) (b : List Byte) : Secure :=
  { x.programFields new b (fun _ => true) with adv := none, fused := some new }

/-- LIFECYCLE_FUSES_PROGRAMMED: step 3 has ended; OK, and a device reset with cause COMMAND follows. -/
def execLifecycleFusesProgrammed (s : State) : Res :=
  match s.sec.adv with
  | none => .next s
  | some (b, new, block) =>
    if s.mem.wiping ∨ ¬ s.alive then .next s
    else
      let s := { s with sec := s.sec.program new block }
      .next { s.finish b stOk with wrd.resetDue := true }

/-- LIFECYCLE_QUERY: the layout of the permitted transitions is not given (log 6). -/
def execLifecycleQuery (h : HostId) (s : State) : Res :=
  runCmd h 0x0B04 anyCmd (fun s _ _ =>
    { s := s, res := [s.sec.life.code, Config.resultWord 0x0B04 1 (s.sec.life.targets.map Life.code)] }) s

end Sys2Proof.Machine
end

