-- ==== Sys2Proof/Machine/IoCells.lean ====
section
/-! DEFINITION. I/O pin faults, the heritage controllers and the user flash (spec/23_io_cells_and_pins.md, R479-R484). -/

namespace Sys2Proof.Machine

/-! ## Pins (R479) -/

/-- GPIO_RETRY: re-enables a pin faulted with cause SHORT; IGNORED for one faulted with cause VCCIO (R473). -/
def execGpioRetry (h : HostId) (s : State) : Res :=
  runCmd h 0x0A06 anyCmd (fun s _ c =>
    let k := 48 * c.f 0 0 4 + c.f 0 8 6
    if (s.pin k).fault = some .short then { s := s.setPin k { s.pin k with fault := none } } else .ignored s) s

/-- GPIO_SHORT_DETECT: an output, if enabled, has disagreed with its pad for 1 ms. Detection runs in RUN, SERVICE and HOLD. -/
def execGpioShortDetect (b : BankId) (p : PinId) (s : State) : Res :=
  let k := 48 * b.val + p.val
  if ¬ (s.running ∨ s.pwr.mode = .hold) ∨ (s.pin k).fault.isSome ∨ (s.pinDrive k).out = none then .next s
  else
    let s := s.setPin k { s.pin k with fault := some .short }
    let s := s.setBank b { s.bank b with shorts := satInc (s.bank b).shorts }
    .next (s.ownerEvent 0x0A03 [b.val, p.val])

/-! ## Heritage controllers (R482, R483) -/

/-- HB_FABRIC[k] of the live plane of meadow 47: the unit is handed to the fabric. -/
def State.hbFabric (s : State) (k : Nat) : Bool := (s.mea 47).live.pers.hbFabric.getLsbD k
/-- HB_PINS[k]: the controller is connected to its pins. -/
def State.hbPins (s : State) (k : Nat) : Bool := (s.mea 47).live.pers.hbPins.getLsbD k

/-- EN of CTRL. -/
def Serial.en (x : Serial) : Bool := x.ctrl.getLsbD 31

/-- A write of DATA queues a byte, with the four I²C bits on an I²C controller. DESIGN CHOICE (log 26): one that finds the
transmit FIFO full is dropped. -/
def State.serialPut (s : State) (k : Nat) (word : BitVec 13) : State :=
  let x := s.serial k
  let w := if 6 ≤ k then word else word &&& 0xFF
  if x.tx.length < 64 then s.setSerial k { x with tx := x.tx ++ [w] } else s

/-- DATA: VALID and the oldest received byte. -/
def Serial.dataReg (x : Serial) : Nat := match x.rx with | b :: _ => 256 + b.toNat | [] => 0

/-- A read of DATA pops the receive FIFO. -/
def State.serialPop (s : State) (k : Nat) : State := s.setSerial k { s.serial k with rx := (s.serial k).rx.tail }

/-- STATUS. BUSY: a queued byte is still to be sent. -/
def Serial.status (x : Serial) : Nat := pack [(x.rx.length, 16), (64 - x.tx.length, 8), (bit (x.en && x.tx ≠ []), 0)]

/-- Bits that a controller's CTRL holds; the rest are reserved. -/
def ctrlMask (k : Nat) : BitVec 32 := if k < 6 then 0x8007FFFF else 0x8000FFFF

/-- READ of an I²C word: a byte is received in place of sending. -/
def isRead (k : Nat) (w : BitVec 13) : Bool := 6 ≤ k && w.getLsbD 11

/-- A received byte: overrun when the FIFO is full. Whether a byte with a framing or parity error enters it is not stated: free
(log 26). -/
def State.serialReceived (s : State) (k : Nat) (b : Byte) (bad : Bool) : State :=
  let x := s.serial k
  let x := if (x.tx.head?.any (isRead k)) then { x with tx := x.tx.tail } else x
  let x := if bad ∧ k < 4 then { x with err := x.err ||| 2 } else x
  let (v, s) := if bad ∧ k < 4 then s.draw else (1, s)
  if ¬ v.getLsbD 0 then s.setSerial k x
  else if x.rx.length < 64 then s.setSerial k { x with rx := x.rx ++ [b] }
  else s.setSerial k { x with err := x.err ||| 1 }

/-- The oldest queued byte leaves. -/
def State.serialSend (s : State) (k : Nat) (err : BitVec 4) : State :=
  let x := s.serial k
  match x.tx with
  | w :: r => if isRead k w then s else (s.setSerial k { x with tx := r, err := x.err ||| err }).emit (.serial k w)
  | [] => s

/-- HERITAGE_SERIAL_BYTE: on a controller that is enabled, connected to its pins and not gated. Whether the byte of a lost
arbitration stays queued is not stated: free (log 26). -/
def execHeritageSerialByte (k : Fin 8) (ev : SerialEvent) (s : State) : Res :=
  let x := s.serial k
  if ¬ s.alive ∨ s.pwr.mode = .hold ∨ ¬ x.en ∨ ¬ s.hbPins k ∨ s.clk.serial = .gated then .next s
  else
    match ev with
    | .received b bad => .next (s.serialReceived k b bad)
    | .sent => .next (s.serialSend k 0)
    | .nack => if 6 ≤ k.val then .next (s.serialSend k 4) else .next s
    | .lostArbitration =>
      if k.val < 6 then .next s
      else
        let (v, s) := s.draw
        .next (s.setSerial k { x with err := x.err ||| 8, tx := if v.getLsbD 0 then x.tx.tail else x.tx })

/-! ## User flash (R484) -/

/-- UF_CMD: an erase (1) or a program (2) begins; while BUSY it is ignored and sets ERROR. Other operations do nothing. -/
def State.ufCmd (s : State) (op : BitVec 2) (page : BitVec 8) : State :=
  if op ≠ 1 ∧ op ≠ 2 then s
  else if s.io.ufOp.isSome then { s with io.ufErr := true }
  else { s with io := { s.io with ufOp := some (op, page), ufPage := page } }

/-- UF_OPERATION_DONE. DEDUCED (log 26): a program is over bits that are not erased when its page is not wholly erased. -/
def execUfOperationDone (s : State) : Res :=
  match s.io.ufOp with
  | none => .next s
  | some (op, p) =>
    let base := 2048 * p.toNat
    if op = 1 then
      let n := s.io.ufErases.get 0 p.toNat + 1
      .next { s with io := { s.io with
        ufOp := none, ufDone := true, uf := s.io.uf.clear base 2048, ufErases := s.io.ufErases.set 0 p.toNat n
        ufWorn := s.io.ufWorn || decide (10000 < n) } }
    else
      let old := s.io.uf.readN base 2048
      let new := List.zipWith (· &&& ·) old (s.io.ufBuf.readN 0 2048)
      .next { s with io := { s.io with
        ufOp := none, ufDone := true, uf := s.io.uf.writeN base new, ufErr := s.io.ufErr || old.any (· ≠ 0xFF) } }

/-! ## Status block (R481) -/

def State.bankStatus (s : State) (b : BankId) : Nat :=
  let mism := (List.range 48).any fun p => (s.pin (48 * b + p)).fault = some .vccio
  pack [((s.bank b).shorts.toNat, 48), ((s.bank b).mv.toNat, 20), (bit (!s.pwr.down.contains (.vccio b)), 19), (bit mism, 18)]

def State.pinFaults (s : State) (b : Nat) : Nat :=
  pack ((List.range 48).map fun p => (bit (s.pin (48 * b + p)).fault.isSome, p))

def State.ioVbat (s : State) : Nat := pack [(bit (!s.sec.vbat), 1), (bit s.sec.keyRam.isSome, 0)]

end Sys2Proof.Machine
end

