-- ==== Sys2Proof/Machine/Registers.lean ====
section
/-! DEFINITION. BAR0 as each host sees it, BAR2, the SMBus target, PCIe links (spec/15_pcie_host_ports.md), with the register
windows of the other chapters. -/

namespace Sys2Proof.Machine

/-! ## Which accesses are served (R323-R325, R329-R331, R334, R335) -/

/-- How an access of BAR0 ends: served; read as zero and dropped without a count; counted as gated; refused for world. -/
inductive Admit where
  | serve | silent | gated
  | denied (kind idx : Nat)
deriving DecidableEq, Repr

/-- The world of the record that a unit window holds at an offset, with its resource kind and number (R330). -/
def State.recordAt (s : State) (w o : Nat) : Option (Nat × Nat × Bool) :=
  if w ≤ 3 ∧ o < 0xC000 then
    let c := 1024 * w + o / 0x30
    some (1, c, decide ((s.ctx c).st ≠ .free) && (s.ctx c).world)
  else if w = 7 ∧ 0x100 ≤ o % 0x8000 ∧ o % 0x8000 < 0x900 then
    let r := 128 * (o / 0x8000) + (o % 0x8000 - 0x100) / 0x10
    some (5, r, (s.region r).world)
  else none

/-- A unit window that is stopped in HOLD: all but the port status and the I/O status block (R331, R481). -/
def heldWindow (w o : Nat) : Bool := w ≠ 12 && !(w = 13 && rng o 0x8000 0x81FF)

/-- A unit window behind a clock gate, or handed to the fabric (R331, R482). -/
def State.closedWindow (s : State) (w o : Nat) : Bool :=
  (w = 13 && o < 0x8000 && (s.clk.serial ≠ .opened || s.hbFabric (o / 0x1000))) ||
    (w = 14 && (s.clk.flash ≠ .opened || s.hbFabric 8))

/-- The rules for one access of host `h`: `n` bytes at `off`. -/
def State.admitAcc (s : State) (h off n : Nat) (write : Bool) : Admit :=
  if ¬ s.alive then (if off < 0x20 ∧ (n = 4 ∨ n = 8) ∧ off % n = 0 then .serve else .silent)
  else if ¬ (n = 4 ∨ n = 8) ∨ off % n ≠ 0 ∨ (off / 0x1000 = 6 ∧ n ≠ 4) ∨ (0x800000 ≤ off ∧ n ≠ 8) then .gated
  else if h = 4 ∧ 0x7000 ≤ off then .gated
  else if off < 0x8000 then .serve
  else if off / 0x10000 = 1 then (if h = s.pwr.owner then .serve else .denied 9 0xFFFFFFF)
  else if off < 0x100000 then .silent
  else if off < 0x800000 then
    let w := (off - 0x100000) / 0x10000
    let o := off % 0x10000
    if 16 ≤ w then .silent
    else if h ≠ s.pwr.owner ∧ (w = 15 ∨ (12 ≤ w ∧ write)) then .denied 9 w
    else if (s.pwr.mode = .hold ∧ heldWindow w o) ∨ s.closedWindow w o then .gated
    else
      match s.recordAt w o with
      | some (kind, i, world) => if reaches (s.hostWorld h) world then .serve else .denied kind i
      | none => .serve
  else
    match s.window h ((off - 0x800000) / 0x2000) with
    | none => .gated
    | some (q, _, _) =>
      if ¬ s.windowsServed then .gated
      else if ¬ reaches (s.hostWorld h) (s.qWorld q) then .denied 2 q
      else .serve

/-- What an access that is not served leaves behind. -/
def State.turnAway (s : State) (h : Nat) : Admit → State
  | .gated => s.gatedAcc h
  | .denied kind i => s.denyBar0 h kind i
  | _ => s

/-! ## Register values (no side effect) -/

/-- Bytes of a response slot (R336). -/
def Rsp.bytes (r : Rsp) : List Byte :=
  leBytes 4 r.rseq.toNat ++ leBytes 4 r.seq.toNat ++ leBytes 2 r.code.toNat ++ leBytes 2 r.tag.toNat ++
    leBytes 1 r.status.toNat ++ leBytes 1 (bit r.isFinal) ++ leBytes 2 r.cause.toNat ++
    (r.res ++ List.replicate (6 - r.res.length) 0).flatMap fun (w : BitVec 64) => leBytes 8 w.toNat

/-- Bytes of an event slot (R336). -/
def Ev.bytes (e : Ev) : List Byte :=
  leBytes 4 e.eseq.toNat ++ leBytes 2 e.code.toNat ++ leBytes 1 e.sev.toNat ++ leBytes 1 0 ++ leBytes 12 e.time.toNat ++
    leBytes 12 e.detail.toNat

/-- Eight bytes of a list from byte `o` on, as a number. -/
def at8 (l : List Byte) (o : Nat) : Nat := leNat ((l.drop o).take 8)

/-- The 32-bit registers of the doorbell page (R326). -/
def Mbox.page (m : Mbox) (o : Nat) : Nat :=
  match o with
  | 0x04 => m.expect.toNat | 0x08 => m.done.toNat | 0x0C => m.ignored.toNat | 0x10 => m.rspW.toNat | 0x14 => m.rspR.toNat
  | 0x18 => m.evW.toNat | 0x1C => m.evR.toNat | 0x20 => m.irqMask.toNat | _ => 0

/-- The pages below 0x8000: identity, rings, timeline, doorbell, MSI-X. R12 says that identity registers give the unit counts, and
R325 lists none that does: the offsets that it leaves out read zero. DESIGN CHOICE (log 31). -/
def State.lowPage (s : State) (h a : Nat) : Nat :=
  let m := s.mb h
  let o := a % 0x1000
  match a / 0x1000 with
  | 0 =>
    match o with
    | 0 => s.idDevice | 8 => s.sec.serial.toNat | 0x10 => s.hostSelf h | 0x18 => s.idStatus | 0x20 => s.accessCounts h | _ => 0
  | 1 => (m.cmd.get 0 (o / 4)).toNat + 2 ^ 32 * (m.cmd.get 0 (o / 4 + 1)).toNat
  | 2 => at8 (m.rsp.get {} (o / 64)).bytes (o % 64)
  | 3 => at8 (m.ev.get {} (o / 32)).bytes (o % 32)
  | 4 =>
    match o with
    | 0 => (s.tl.secLatch.get 0 h).toNat | 8 => (s.tl.nsLatch.get 0 h).toNat | 0x10 => s.tlStatus | 0x18 => s.tl.incr.toNat
    | _ => 0
  | 5 => at8 (m.ev.get {} (128 + o / 32)).bytes (o % 32)
  | 6 => m.page o + 2 ^ 32 * m.page (o + 4)
  | _ => leNat ((s.link h).msix.readN o 8)

/-- Source code of a bit of CLK_SRC_READY (R417). -/
def readyCode (i : Nat) : Option Nat :=
  if i ≤ 8 then some (i + 1)
  else if i = 16 ∨ i = 17 then some (0x20 + i - 16)
  else if 20 ≤ i then some (if i ≤ 31 then 0x10 + i - 20 else 0x40 + i - 32)
  else none

/-- A word of one bit for each of 64 places. -/
def bits64 (f : Nat → Bool) : Nat := pack ((List.range 64).map fun i => (bit (f i), i))

def GateState.code : GateState → Nat
  | .opened => 0 | .closing => 1 | .gated => 2

/-- ROOT_STATUS. -/
def Clocks.rootStatus (x : Clocks) : Nat :=
  pack [(x.coasts.toNat, 48), (x.pref.toNat, 32), (x.ref.toNat, 24), (bit x.locked, 19), (bit x.coast, 18), (bit x.fast, 17),
    (bit x.trimmed, 16)]

/-- FLOOP_STATUS. -/
def FLoop.status (x : FLoop) : Nat :=
  let a := x.a1.toNat
  pack [(x.ref, 56), (bit (x.div 0 ≠ 0 || x.div 1 ≠ 0), 55), (bit x.locked, 54), (bit x.refLost, 53),
    (fld x.a2.toNat 16 1, 52), (bit x.loss, 51), (fld a 8 5, 40), (fld a 16 8, 32), (fld a 24 24, 8)]

/-- FLOOP_CONFIG. -/
def FLoop.config (x : FLoop) : Nat :=
  pack [(x.div 0, 56), (x.div 1, 48), (fld x.a2.toNat 0 8, 40), (fld x.a2.toNat 8 8, 32)]

/-- GCLK_STATUS. -/
def GClk.status (x : GClk) : Nat :=
  pack [(x.src.toNat, 56), (bit x.sw.isSome, 55), (bit x.forced, 54), (bit (x.stopped || x.src = 0), 53), (x.switches.toNat, 0)]

/-- The clock unit (R417). -/
def State.clockUnit (s : State) (o : Nat) : Nat :=
  let flag := fun (f : Nat → Bool) => bits64 fun i => match readyCode i with | some c => f c | none => false
  if o = 0 then flag s.srcReady
  else if o = 8 then flag fun c => s.clk.dead.get false c
  else if o = 0x10 then s.clk.rootStatus
  else if o = 0x18 then bits64 fun i => s.srcReady (0x80 + i)
  else if o = 0x20 then bits64 fun i => s.srcReady (0xC0 + i)
  else if rng o 0x100 0x2FF then (s.floop ((o - 0x100) / 8)).status
  else if rng o 0x300 0x4FF then (s.floop ((o - 0x300) / 8)).config
  else if rng o 0x600 0x7FF then (s.gclk ((o - 0x600) / 8)).status
  else if rng o 0x800 0xDFF then
    let x := s.mea ((o - 0x800) / 8)
    pack ((List.range 4).map fun k => (if s.pwr.ghold then 3 else (x.rclk.get .opened k).code, 2 * k))
  else if o = 0xE00 then pack ((List.range 32).map fun r => ((s.row r).gate.code, 2 * r))
  else if o = 0xE08 then pack [(s.clk.flash.code, 2), (s.clk.serial.code, 0)]
  else 0

/-- Statistics window of swathe engine `w` (R296, R318). -/
def State.engineWindow (s : State) (w o : Nat) : Nat :=
  if o < 0xC000 then (s.ctx (1024 * w + o / 0x30)).stat (o % 0x30 / 8)
  else if o = 0xC000 then s.seStatus w
  else if rng o 0xC008 0xC047 then (s.port (8 * w + (o - 0xC008) / 8)).unmatched.toNat
  else if rng o 0xD000 0xD03F then s.laneStatus (ethLane w ((o - 0xD000) / 8))
  else if rng o 0xD100 0xD17F then
    let p := (o - 0xD100) / 0x10
    if o % 0x10 = 0 then s.ethStatus w p else s.ethCounts w p
  else 0

/-- Status of a pseudo-channel (R247). -/
def State.hbmWindow (s : State) (stack o : Nat) : Nat :=
  let pc := 16 * stack + o / 0x1000
  let x := s.pch pc
  match o % 0x1000 with
  | 0 => s.pcStatus pc
  | 8 => s.pcErrcnt pc
  | 0x10 => x.srIdle
  | 0x20 => x.masks.getD 0 0 + 2 ^ 32 * x.masks.getD 1 0
  | 0x28 => x.masks.getD 2 0 + 2 ^ 32 * x.masks.getD 3 0
  | r => if rng r 0x40 0x5F then s.qosTarget pc ((r - 0x40) / 4) + 2 ^ 32 * s.qosTarget pc ((r - 0x40) / 4 + 1) else 0

/-- Scrim status (R266). -/
def State.scrimWindow (s : State) (o : Nat) : Nat :=
  let i := o / 0x8000
  let r := o % 0x8000
  if r = 0 then s.sliceStatus i
  else if rng r 0x100 0x8FF then
    let n := 128 * i + (r - 0x100) / 0x10
    if r % 0x10 = 0 then s.regionStatus n else (s.region n).root
  else 0

/-- PCIE_LINK_STATUS (R332). -/
def PcieLink.status (x : PcieLink) : Nat :=
  pack [(x.st.toNat, 61), (x.gen.toNat, 57), (x.width.toNat, 52), (bit x.flit, 51), (x.downs.toNat, 0)]

/-- Registers of a heritage controller (R483). -/
def Serial.reg (x : Serial) (o : Nat) : Nat :=
  match o with
  | 0 => x.dataReg | 8 => x.status | 0x10 => x.ctrl.toNat | 0x18 => x.err.toNat | _ => 0

/-- I/O status block (R481). -/
def State.ioStatus (s : State) (o : Nat) : Nat :=
  if rng o 0x8000 0x807F then s.bankStatus (Fin.ofNat 16 ((o - 0x8000) / 8))
  else if rng o 0x8080 0x80FF then s.pinFaults ((o - 0x8080) / 8)
  else if o = 0x8100 then s.ioVbat
  else 0

/-- User flash window (R484). -/
def State.flashWindow (s : State) (o : Nat) : Nat :=
  let x := s.io
  if o < 0x8000 then leNat (x.uf.readN (0x8000 * x.ufBank.toNat + o) 8)
  else if o = 0x8000 then x.ufBank.toNat
  else if o = 0x8010 then pack [(bit x.ufWorn, 3), (bit x.ufErr, 2), (bit x.ufDone, 1), (bit x.ufOp.isSome, 0)]
  else if o = 0x8018 then x.ufErases.get 0 x.ufPage.toNat
  else if rng o 0x9000 0x97FF then leNat (x.ufBuf.readN (o - 0x9000) 8)
  else 0

/-- The page of window 15: scratchpad and byte offset; none for the values 5 to 7 (R333). -/
def State.scrPlace (s : State) (o : Nat) : Option (Nat × Nat) :=
  let p := s.wrd.scrPage.toNat / 64
  if p ≤ 4 then some (p, 0x8000 * (s.wrd.scrPage.toNat % 64) + o) else none

/-- Window 15: reads go to the scratchpad, which a wipe makes read zero; a word with an uncorrectable error reads as stored (R97). -/
def State.scrRead (s : State) (h o : Nat) : State × Nat :=
  if o < 0x8000 then
    match s.scrPlace o with
    | some (p, a) =>
      let g := s.padRead { kind := 0, index := h, world := s.hostWorld h } p a 8
      (g.s, if g.st = hsDenied then 0 else leNat g.data)
    | none => (s, 0)
  else (s, if o = 0x8000 then s.wrd.scrPage.toNat else 0)

/-- Unit windows 0-14. -/
def State.unitWindow (s : State) (w o : Nat) : Nat :=
  if w ≤ 3 then s.engineWindow w o
  else if w = 4 then
    let j := o / 0x100
    if 32 ≤ j then 0
    else match o % 0x100 with
      | 0 => s.sdiStatus j | 8 => s.sdiCounts j | 0x10 => s.laneStatus (sdiLane j) | _ => 0
  else if w ≤ 6 then s.hbmWindow (w - 5) o
  else if w = 7 then s.scrimWindow o
  else if w ≤ 11 then
    match o with
    | 0 => s.schedStatus (w - 8) | 8 => s.schedCounts (w - 8) | 0x10 => (s.tl.ticks.get {} (w - 8)).count.toNat | _ => 0
  else if w = 12 then
    if o < 0x80 then s.laneStatus (o / 8)
    else if rng o 0x100 0x17F then s.laneStatus (72 + (o - 0x100) / 8)
    else if rng o 0x200 0x21F then (s.link ((o - 0x200) / 8)).status
    else 0
  else if w = 13 then (if o < 0x8000 then (s.serial (o / 0x1000)).reg (o % 0x1000) else s.ioStatus o)
  else if w = 14 then s.flashWindow o
  else 0

/-- A queue window (R126, R505): `q` the queue, `sl` the producer slot, `cons` the consumer role. While the queue's column is not
ON, HEAD and HEAD_TAG read zero, SEQ included, and the controller's own registers read on. DESIGN CHOICE (log 13). -/
def State.queueWindow (s : State) (n q sl : Nat) (cons : Bool) (o : Nat) : Nat :=
  let x := s.queue q
  let shows := cons && s.qServes q && decide (s.qCol q = .on)
  match o with
  | 0x100 => if shows then (match x.head with | some w => w.data.toNat | none => 0) else 0
  | 0x108 => if shows then x.headTag else 0
  | 0x118 => if sl ≠ 0 ∧ (x.slot sl).src = srcCode 5 n then (x.slot sl).held else 0
  | 0x120 => s.qStatus q
  | 0x128 => x.counts
  | _ => 0

/-- The 64-bit word of BAR0 at an aligned offset. -/
def State.regWord (s : State) (h a : Nat) : State × Nat :=
  if a < 0x8000 then (s, s.lowPage h a)
  else if a / 0x10000 = 1 then (s, s.clockUnit (a % 0x10000))
  else if a < 0x800000 then
    let w := (a - 0x100000) / 0x10000
    if w = 15 then s.scrRead h (a % 0x10000) else (s, s.unitWindow w (a % 0x10000))
  else
    let n := (a - 0x800000) / 0x2000
    match s.window h n with
    | some (q, sl, cons) => (s, s.queueWindow n q sl cons (a % 0x2000))
    | none => (s, 0)

/-! ## Reads -/

/-- The heath of a host's port: heath 0 for port A and host 4, heath 3 for port B (R328). -/
def hostHeath (h : Nat) : Nat := if h = 2 ∨ h = 3 then 3 else 0

/-- A read of byte 0 of TL_SEC samples the timeline for the host (R328). -/
def State.sampleTl (s : State) (h : Nat) : State :=
  let t := s.heathNow (hostHeath h)
  { s with tl := { s.tl with
    secLatch := s.tl.secLatch.set 0 h (BitVec.ofNat 64 (t / secU))
    nsLatch := s.tl.nsLatch.set 0 h (BitVec.ofNat 64 (pack [(t % secU / nsU, 32), (t % nsU, 0)])) } }

/-- The heritage controller whose DATA lies at an offset. -/
def dataAt (off : Nat) : Option Nat :=
  if off / 0x10000 = 0x1D ∧ off % 0x1000 = 0 ∧ off % 0x10000 < 0x8000 then some (off % 0x10000 / 0x1000) else none

/-- A read of `n` bytes of BAR0 by host `h`, with its side effect. -/
def State.bar0Read (s : State) (h off n : Nat) : State × List Byte :=
  match s.admitAcc h off n false with
  | .serve =>
    let s := if off = 0x4000 then s.sampleTl h else s
    let (s, v) := s.regWord h (off / 8 * 8)
    let s := match dataAt off with | some k => s.serialPop k | none => s
    (s, (leBytes 8 v).drop (off % 8) |>.take n)
  | a => (s.turnAway h a, List.replicate n 0)

/-! ## Writes -/

/-- Write the bytes of a value of `n` bytes into a memory that holds registers. -/
def Mem.putReg (m : Mem) (a n v : Nat) : Mem := m.writeN a (leBytes n v)

/-- TL_STATUS: the owner clears STEPPED and SKEW_FAULT by ones; a write of another host is refused, with a RES_INDEX that no
rule gives (log 10). `v` is the 64-bit word with the bits not written zero. -/
def State.tlClear (s : State) (h v : Nat) : State :=
  if h = s.pwr.owner then
    { s with tl := { s.tl with
      stepped := s.tl.stepped && fld v 8 1 = 0, skewFault := s.tl.skewFault && fld v 7 1 = 0 } }
  else
    let (i, s) := s.draw
    s.denyBar0 h 9 (i.toNat % 2 ^ 28)

/-- The pages below 0x8000. `v` is the 64-bit word with the bits not written zero. -/
def State.lowWrite (s : State) (h off n data v : Nat) : State :=
  let o := off % 0x1000
  match off / 0x1000 with
  | 1 => s.updMb h fun m => { m with
      cmd := m.cmd.setFrom 0 (o / 4) ((List.range (n / 4)).map fun i => BitVec.ofNat 32 (data / 2 ^ (32 * i))) }
  | 4 => if o / 8 = 2 then s.tlClear h v else s
  | 6 =>
    let d := BitVec.ofNat 32 data
    match o with
    | 0 => s.doorbell h d | 0x14 => s.rspRead h d | 0x1C => s.evtRead h d | 0x20 => s.irqMaskWrite h d | _ => s
  | 7 => if o < 0x20 then s.setLink h { s.link h with msix := (s.link h).msix.putReg o n data } else s
  | _ => s

/-- RW1C bits of the clock unit. -/
def State.clockWrite (s : State) (o v : Nat) : State :=
  if o = 8 then
    let on := (List.range 64).filterMap fun i => if fld v i 1 = 1 then readyCode i else none
    { s with clk.dead := on.foldl (fun t c => t.set false c false) s.clk.dead }
  else if rng o 0x100 0x2FF ∧ fld v 51 1 = 1 then
    let l := (o - 0x100) / 8
    s.setFloop l { s.floop l with loss := false }
  else if rng o 0x600 0x7FF ∧ fld v 54 1 = 1 then
    let g := (o - 0x600) / 8
    s.setGclk g { s.gclk g with forced := false }
  else s

/-- Window 13 (R483): the registers lie in the low half of their words. -/
def State.serialWrite (s : State) (o v : Nat) (low : Bool) : State :=
  let k := o / 0x1000
  if ¬ low ∨ 8 ≤ k then s
  else
    match o % 0x1000 with
    | 0 => s.serialPut k (BitVec.ofNat 13 v)
    | 0x10 => s.setSerial k { s.serial k with ctrl := BitVec.ofNat 32 v &&& ctrlMask k }
    | 0x18 => s.setSerial k { s.serial k with err := (s.serial k).err &&& ~~~ BitVec.ofNat 4 v }
    | _ => s

/-- Window 14 (R484). -/
def State.flashWrite (s : State) (o n data v : Nat) (low : Bool) : State :=
  if rng (o / 8 * 8) 0x9000 0x97FF then { s with io.ufBuf := s.io.ufBuf.putReg (o - 0x9000) n data }
  else if ¬ low then s
  else
    match o with
    | 0x8000 => { s with io.ufBank := BitVec.ofNat 4 v }
    | 0x8008 => s.ufCmd (BitVec.ofNat 2 (fld v 24 2)) (BitVec.ofNat 8 v)
    | 0x8010 => { s with io := { s.io with ufDone := s.io.ufDone && fld v 1 1 = 0, ufErr := s.io.ufErr && fld v 2 1 = 0 } }
    | _ => s

/-- Window 15 (R333). -/
def State.scrWrite (s : State) (h o n v : Nat) : State :=
  if o < 0x8000 then
    match s.scrPlace (o / 8 * 8) with
    | some (p, a) =>
      let be := (List.range 8).map fun i => decide (o % 8 ≤ i ∧ i < o % 8 + n)
      (s.padWrite { kind := 0, index := h, world := s.hostWorld h } p a (leBytes 8 v) be).s
    | none => s
  else if o = 0x8000 then { s with wrd.scrPage := BitVec.ofNat 9 v }
  else s

/-- A push refused for world reaches the queue controller, which gives its credit back and counts it (R504). -/
def Admit.push (off : Nat) : Admit → Admit
  | .denied k i => if 0x800000 ≤ off ∧ off % 0x2000 < 0x20 then .serve else .denied k i
  | a => a

/-- A write of `n` bytes of BAR0 by host `h`. -/
def State.bar0Write (s : State) (h off n data : Nat) : State :=
  let data := data % 2 ^ (8 * n)
  match (s.admitAcc h off n true).push off with
  | .serve =>
    if ¬ s.alive then s
    else
      let v := data * 2 ^ (8 * (off % 8))
      let o := off % 0x10000
      let low := decide (off % 8 = 0)
      if off < 0x8000 then s.lowWrite h off n data v
      else if off / 0x10000 = 1 then s.clockWrite (o / 8 * 8) v
      else if off < 0x800000 then
        match (off - 0x100000) / 0x10000 with
        | 13 => s.serialWrite o v low
        | 14 => s.flashWrite o n data v low
        | 15 => s.scrWrite h o n v
        | _ => s
      else
        let k := (off - 0x800000) / 0x2000
        match off % 0x2000 with
        | 0 => s.windowPush h k 0 (BitVec.ofNat 64 data)
        | 8 => s.windowPush h k 1 (BitVec.ofNat 64 data)
        | 0x10 => s.windowPush h k 2 (BitVec.ofNat 64 data)
        | 0x18 => s.windowPush h k 3 (BitVec.ofNat 64 data)
        | 0x110 => s.windowPop h k (BitVec.ofNat 64 data)
        | _ => s
  | a => s.turnAway h a

/-! ## Rows of BAR0 -/

/-- TL_SEC_READ. -/
def execTlSecRead (h : HostId) (s : State) : Res :=
  let (s, d) := s.bar0Read h 0x4000 8
  .next (s.emit (.read h d))

/-- TL_STATUS_CLEAR. -/
def execTlStatusClear (h : HostId) (value : BitVec 32) (s : State) : Res := .next (s.bar0Write h 0x4010 4 value.toNat)

/-- REGISTER_WRITE, and a host's read that has no row of its own (R324, R330, R331; log 31). -/
def execRegisterWrite (h : HostId) (off : BitVec 24) (len : Nat) (acc : RegAccess) (s : State) : Res :=
  match acc with
  | .write data => .next (s.bar0Write h off.toNat len data.toNat)
  | .read =>
    let (s, d) := s.bar0Read h off.toNat len
    .next (s.emit (.read h d))

/-- Offset of a heritage controller's DATA. -/
def dataOff (k : Nat) : Nat := 0x1D0000 + 0x1000 * k

/-- HERITAGE_DATA_READ. -/
def execHeritageDataRead (h : HostId) (k : Fin 8) (s : State) : Res :=
  let (s, d) := s.bar0Read h (dataOff k) 8
  .next (s.emit (.read h d))

/-- HERITAGE_DATA_WRITE. -/
def execHeritageDataWrite (h : HostId) (k : Fin 8) (word : BitVec 13) (s : State) : Res :=
  .next (s.bar0Write h (dataOff k) 8 word.toNat)

/-- UF_ERASE_PAGE. -/
def execUfErasePage (h : HostId) (page : BitVec 8) (s : State) : Res :=
  .next (s.bar0Write h 0x1E8008 8 (2 ^ 24 + page.toNat))

/-- UF_PROGRAM_PAGE. -/
def execUfProgramPage (h : HostId) (page : BitVec 8) (s : State) : Res :=
  .next (s.bar0Write h 0x1E8008 8 (2 * 2 ^ 24 + page.toNat))

/-- UNIT_ACCESS_TIMEOUT: a unit has not answered within 2 us (R331). -/
def execUnitAccessTimeout (h : HostId) (read : Bool) (s : State) : Res :=
  let s := s.gatedAcc h
  .next (if read then s.emit (.read h (List.replicate 8 0)) else s)

/-! ## BAR2 (R224, R225) -/

/-- Where an access of BAR2 goes: the mapped buffer and offset, inside the slice and the buffer. -/
def State.aperture (s : State) (h addr n : Nat) : Option (Nat × Nat) :=
  match s.sliceAt (1024 * h + addr / 2 ^ 26) with
  | some (hd, off) =>
    let o := off + addr % 2 ^ 26
    match s.buf hd with
    | some b => if o + n ≤ 4096 * b.size then some (hd, o) else none
    | none => none
  | none => none

/-- APERTURE_MISSES. -/
def State.apMissed (s : State) (h : Nat) : State := s.updMb h fun m => { m with apMiss := satInc m.apMiss }

/-- An access longer than the maximum payload, or over the end of its slice (R334). -/
def badApAccess (h addr n : Nat) : Bool := h = 4 || n = 0 || 512 < n || 2 ^ 26 < addr % 2 ^ 26 + n

/-- BAR2_WRITE. In HOLD a request that reaches HBM is held until the return to RUN, and meets the bound of R208 (R238). -/
def execBar2Write (h : HostId) (addr : BitVec 36) (data : List Byte) (be : List Bool) (s : State) : Res :=
  if ¬ s.alive then .next s
  else if badApAccess h addr.toNat data.length then .next (s.gatedAcc h)
  else
    match s.aperture h addr.toNat data.length with
    | none => .next (s.apMissed h)
    | some (hd, off) =>
      if s.heldInHold hd then
        .next (s.holdReq (s.asker (.host h)) 0 hd off (.bar2Write data be))
      else
        let g := s.apWrite (s.asker (.host h)) hd off data be
        .next (if g.st = hsOk then g.s.serveAll else g.s.serveAll.writeFailed h hd off g.st)

/-- BAR2_READ. Data of a read that does not end OK is zero where R207 says so, and free for the statuses that give none. -/
def execBar2Read (h : HostId) (addr : BitVec 36) (len : Nat) (s : State) : Res :=
  let zeros := List.replicate len (0 : Byte)
  if ¬ s.alive then .next (s.emit (.read h zeros))
  else if badApAccess h addr.toNat len then .next ((s.gatedAcc h).emit (.read h zeros))
  else
    match s.aperture h addr.toNat len with
    | none => .next ((s.apMissed h).emit (.read h zeros))
    | some (hd, off) =>
      -- a read waits for the earlier writes of its host, those that HOLD holds with it
      let waits := s.hg.held.any fun q => !q.late && q.who.requester = (s.asker (.host h)).requester
      if s.heldInHold hd ∨ waits then .next (s.holdReq (s.asker (.host h)) 0 hd off (.bar2Read len))
      else
        let g := (s.bufRead (s.asker (.host h)) hd off len).whole len
        .next (g.s.emit (.read h g.data))

/-! ## PCIe links (R319-R322) -/

/-- Widest link of a host's port: x16, or x8 after bifurcation (R319, R320). -/
def State.maxWidth (s : State) (n : Nat) : Nat := if (if n < 2 then s.pwr.straps.bifA else s.pwr.straps.bifB) then 8 else 16

/-- The bits of a dword of the configuration space that R319 and R321 settle: a mask and their value. Identity and BAR sizes; no
other BAR, no expansion ROM, one function; payloads of 512 bytes, 64 GT/s, L1 alone, two MSI-X vectors, advanced error reporting, D0
and D3hot alone. PRESUMED (log 27): where PCI Express has each in its structure. -/
def State.cfgFixed (s : State) (n reg : Nat) : BitVec 32 × BitVec 32 :=
  match reg with
  | 0 => (0xFFFFFFFF, 0x96121F3A)
  | 1 => (0x00100000, 0x00100000)
  | 2 => (0xFFFFFFFF, 0x12000001)
  | 3 => (0x00FF0000, 0)
  | 4 => (0x00FFFFFF, 4)
  | 5 => (0, 0)
  | 6 => (0xFFFFFFFF, 0xC)
  | 7 => (0x0000000F, 0)
  | 8 | 9 | 10 | 12 => (0xFFFFFFFF, 0)
  | 11 => (0xFFFFFFFF, if s.sec.life = .blank then 0 else (s.sec.subsys <<< 16) ||| (s.sec.subsys >>> 16))
  | _ =>
    if reg = Config.capPcie then (0xFF, 0x10)
    else if reg = Config.capPcie + 1 then (0x7, 2)
    else if reg = Config.capPcie + 3 then (0xFFF, BitVec.ofNat 32 (2 * 1024 + 16 * s.maxWidth n + 6))
    else if reg = Config.capPm then (0x060000FF, 0x01)
    else if reg = Config.capMsix then (0x07FF00FF, 0x00010011)
    else if reg = Config.capAer then (0xFFFF, 0x0001)
    else (0, 0)

/-- A dword of the configuration space: what the rules settle; its other bits as last written, else free (log 27). -/
def State.cfgRead (s : State) (n reg : Nat) : BitVec 32 × State :=
  let (mask, v) := s.cfgFixed n reg
  let (x, s) :=
    if reg = 4 ∨ reg = 5 ∨ reg = 7 ∨ (s.link n).cfg.keys.contains reg then ((s.link n).cfg.get 0 reg, s)
    else if mask = BitVec.allOnes 32 then (0, s)
    else
      let (w, s) := s.draw
      (w.setWidth 32, s)
  ((x &&& ~~~mask) ||| v, s)

/-- In HOLD a link whose host enables ASPM, or that trains anew, enters L1 too (R431). -/
def State.linkInHold (s : State) (n : Nat) : State := if s.pwr.mode = .hold then s.setLink n (s.link n).enterHold else s

/-- PCIE_CONFIG_REQUEST: retry status before the controller is ready. -/
def execPcieConfigRequest (n : Fin 4) (reg : BitVec 10) (write : Option (BitVec 32)) (s : State) : Res :=
  if ¬ s.hosts.contains n.val then .next s
  else if ¬ (s.link n).cfgReady then .next (s.emit (.cfg n none))
  else
    match write with
    | some v =>
      let x := s.link n
      .next (((s.setLink n { x with cfg := x.cfg.set 0 reg.toNat v }).linkInHold n).emit (.cfg n (some 0)))
    | none =>
      let (v, s) := s.cfgRead n reg.toNat
      .next (s.emit (.cfg n (some v)))

/-- HOST_LINK_RESET: a reset or link-down, or D3hot, which leaves the link up. -/
def execHostLinkReset (n : Fin 4) (d3hot : Bool) (s : State) : Res :=
  if d3hot then .next ((s.dropReads n).setLink n { s.link n with cfg := {} }) else .next (s.linkReset n)

/-- The rate and the width are ones that the port supports (R319, R320). -/
def State.linkFits (s : State) (n : Nat) (gen : BitVec 4) (width : BitVec 5) : Bool :=
  let split := if n < 2 then s.pwr.straps.bifA else s.pwr.straps.bifB
  rng gen.toNat 3 6 && ([1, 2, 4, 8] : List Nat).contains width.toNat || (rng gen.toNat 3 6 && width = 16 && !split)

/-- The serial lanes of a link of `width` lanes. -/
def linkLanes (n width : Nat) : List Nat := (List.range width).map fun i => (if n < 2 then 0 else 72) + 8 * (n % 2) + i

/-- The rate in Mbit/s of a PCIe generation (R299). -/
def pcieMbit (gen : Nat) : Nat := if gen = 3 then 8000 else if gen = 4 then 16000 else if gen = 5 then 32000 else 64000

/-- The lanes of a link run with a signal, at its rate, PAM4 at 64 GT/s (R299), with the taps that equalisation has set (R300). -/
def State.setLinkLanes (s : State) (n gen width : Nat) : State :=
  (each (linkLanes n width) (fun l s => s.updLane l fun x => { x with
    st := .ready, signal := true, pam4 := decide (gen = 6), rate := BitVec.ofNat 17 (pcieMbit gen) }) s).trainTaps (linkLanes n width)

/-- PCIE_LINK_UP: the link leaves Detect for L0; its controller then answers configuration requests. No link trains before the
start-up enables it (R434), nor on a lane under calibration or test (R303). -/
def execPcieLinkUp (n : Fin 4) (gen : BitVec 4) (width : BitVec 5) (flit : Bool) (s : State) : Res :=
  let x := s.link n
  if ¬ s.hosts.contains n.val ∨ x.st = 0 ∨ x.st = 2 ∨ x.st = 3 ∨ ¬ s.linkFits n gen width ∨ s.pwr.down.contains .lane ∨
      s.pwr.down.contains .laneTx ∨ (linkLanes n width.toNat).any (s.laneBusy ·) then .next s
  else
    .next (((s.setLinkLanes n gen.toNat width.toNat).setLink n { x with
      st := 2, gen := gen, width := width, flit := flit || decide (gen = 6), cfgReady := true }).linkInHold n)

/-! ## SMBus (R335) -/

/-- A transaction that is not performed. -/
def State.smbBad (s : State) : State := (s.gatedAcc 4).emit (.smb none)

/-- A data length that commands 0x11 and 0x12 allow. -/
def smbLen (n : Nat) : Bool := rng n 4 32 && n % 4 = 0

/-- SMB_SET_POINTER: command 0x10, and a command of no code of R335, which is not performed. DEDUCED (log 27): the three bytes come
least significant first, as R18 has everywhere. -/
def execSmbSetPointer (msg : SmbMsg) (pecOk : Bool) (s : State) : Res :=
  let p := leNat msg.bytes
  if msg.code ≠ 0x10 ∨ ¬ pecOk ∨ msg.bytes.length ≠ 3 ∨ p % 4 ≠ 0 then .next s.smbBad
  else .next ({ s with wrd.smbPtr := p }.emit (.smb (some [])))

/-- Advance the pointer over one dword. -/
def State.smbStep (s : State) : State := { s with wrd.smbPtr := (s.wrd.smbPtr + 4) % 2 ^ 24 }

/-- Write dwords at the pointer. -/
def State.smbPut (s : State) : List Byte → Nat → State
  | _, 0 => s
  | l, k + 1 => ((s.bar0Write 4 s.wrd.smbPtr 4 (leNat (l.take 4))).smbStep).smbPut (l.drop 4) k

/-- SMB_WRITE. -/
def execSmbWrite (bytes : List Byte) (pecOk : Bool) (s : State) : Res :=
  if ¬ pecOk ∨ ¬ smbLen bytes.length then .next s.smbBad
  else .next ((s.smbPut bytes (bytes.length / 4)).emit (.smb (some [])))

/-- Read dwords at the pointer. -/
def State.smbGet (s : State) : Nat → List Byte → State × List Byte
  | 0, acc => (s, acc)
  | k + 1, acc =>
    let (t, d) := s.bar0Read 4 s.wrd.smbPtr 4
    t.smbStep.smbGet k (acc ++ d)

/-- SMB_READ. -/
def execSmbRead (count : Nat) (pecOk : Bool) (s : State) : Res :=
  if ¬ pecOk ∨ ¬ smbLen count then .next s.smbBad
  else
    let (s, d) := s.smbGet (count / 4) []
    .next (s.emit (.smb (some d)))

/-- SMB_ALERT_RESPONSE: the device answers with its address while SMBALERT_N is low; the lowest bit of the byte is free
(log 27). -/
def execSmbAlertResponse (s : State) : Res :=
  if s.smbAlert then
    let (v, s) := s.draw
    .next (s.emit (.smb (some [BitVec.ofNat 8 (2 * (0x58 + s.pwr.straps.smb.toNat) + v.toNat % 2)])))
  else .next (s.emit (.smb none))

end Sys2Proof.Machine
end

