-- ==== Sys2Proof/Machine/Debug.lean ====
section
/-! DEFINITION. The debug port: instructions, unlocking, the bus master, run control (spec/22_debug_and_run_control.md). -/

namespace Sys2Proof.Machine

/-! ## Instructions (R453-R455) -/

/-- The debug domain has power. -/
def State.dbgUp (s : State) : Bool := !s.pwr.down.contains .dbg

/-- "Open" of R454. -/
def State.isOpen (s : State) : Bool := decide (s.sec.life = .blank) || decide (s.sec.life = .opened) || decide (s.pwr.mode = .service)

/-- The port is open. In LOCKDOWN nothing more than R471 gives is reachable. -/
def State.dbgOpen (s : State) : Bool := s.alive && s.isOpen

/-- The condition under which an instruction is available (R454, R471). -/
def State.available (s : State) : Jtag → Bool
  | .idcode | .sample | .dbgStatus | .bypass => true
  | .extest | .clamp | .highz | .extestPulse | .extestTrain =>
    s.pwr.mode = .boot || (s.pwr.mode = .load && s.ldr.job.isNone)
  | .dbgChallenge | .dbgResponse => s.alive && (decide (s.sec.life = .sealed) || decide (s.sec.life = .returned))
  | .dbgAccess => s.dbgOpen
  | .keyProgram => s.alive && (decide (s.sec.life = .blank) || decide (s.sec.life = .opened))

/-- The instruction register takes an instruction. When a boundary-scan test ends, a start-up load that waited begins. -/
def State.setIr (s : State) (i : Jtag) : State :=
  let t := { s with dbg.ir := i }
  if s.testing ∧ ¬ t.testing ∧ s.pwr.loadWait then t.startUpLoad else t

/-- REFUSED counts. -/
def State.dbgRefused (s : State) : State := { s with dbg.refused := satInc s.dbg.refused }

/-- An instruction is loaded and its data register scanned by `act`; one not available selects bypass and is counted. -/
def State.tap (s : State) (i : Jtag) (act : State → State) : State :=
  if ¬ s.dbgUp then s
  else if s.available i then act (s.setIr i)
  else (s.setIr .bypass).dbgRefused.emit (.jtag 1 0)

/-- Bits shifted out, the first the least significant. -/
def scanBits (l : List Bool) : Nat := l.foldr (fun b v => bit b + 2 * v) 0

/-- A boundary scan: the pins' levels are captured and shifted out, and the cells take what is shifted in. -/
def State.boundaryScan (s : State) (pins scan : List Bool) : State :=
  ({ s with dbg.bsr := scan }).emit (.jtag pins.length (scanBits pins))

/-- A test that drives the pins, by cell: configuration, strap and user pins hold what was shifted in (R455). -/
def State.scanDrive (s : State) (pins scan : List Bool) : State := (s.boundaryScan pins scan).emit (.scanned scan)

/-- An AC test also drives the serial lane pins, with a pulse or a train of pulses (R308). -/
def State.scanLanes (s : State) (pins scan : List Bool) (train : Bool) : State :=
  (s.scanDrive pins scan).emit (.scannedLanes train (Config.laneCells.map fun c => scan.getD c false))

def execExtest (pins scan : List Bool) (s : State) : Res := .next (s.tap .extest fun s => s.scanDrive pins scan)
def execSamplePreload (pins scan : List Bool) (s : State) : Res := .next (s.tap .sample fun s => s.boundaryScan pins scan)
def execExtestPulse (pins scan : List Bool) (s : State) : Res := .next (s.tap .extestPulse fun s => s.scanLanes pins scan false)
def execExtestTrain (pins scan : List Bool) (s : State) : Res := .next (s.tap .extestTrain fun s => s.scanLanes pins scan true)
def execClamp (s : State) : Res := .next (s.tap .clamp fun s => s.emit (.jtag 1 0))
def execHighz (s : State) : Res := .next (s.tap .highz fun s => s.emit (.jtag 1 0))
def execBypass (s : State) : Res := .next (s.tap .bypass fun s => s.emit (.jtag 1 0))
def execIdcode (s : State) : Res := .next (s.tap .idcode fun s => s.emit (.jtag 32 0x19612C35))

/-- TRST_N_RESET: Test-Logic-Reset selects IDCODE. -/
def execTrstNReset (s : State) : Res := if s.dbgUp then .next (s.setIr .idcode) else .next s

/-- DBG_STATUS (R456). -/
def State.dbgStatus (s : State) : Nat :=
  pack [(s.sec.life.code, 60), (s.pwr.mode.code, 56), (bit s.isOpen, 55), (bit s.sec.unlocked, 54), (bit s.sec.chal.isSome, 53),
    (s.dbg.last.toNat, 48), (s.sec.fails.toNat, 44), (s.pwr.cause.toNat, 32), (s.dbg.refused.toNat, 16)]

def execDbgStatus (s : State) : Res := .next (s.tap .dbgStatus fun s => s.emit (.jtag 64 s.dbgStatus))

/-! ## Challenge and response (R466-R469) -/

/-- A challenge-response takes place in this lifecycle state. -/
def State.chalLife (s : State) : Bool := decide (s.sec.life = .sealed) || decide (s.sec.life = .returned)

/-- A new challenge replaces the old one. -/
def State.newChallenge (s : State) : State × BitVec 128 :=
  let v := Config.challenge s.sec.chalSeq
  ({ s with sec := { s.sec with chal := some v, chalSeq := s.sec.chalSeq + 1 } }, v)

/-- DEBUG_CHALLENGE. -/
def execDebugChallenge (h : HostId) (s : State) : Res :=
  runCmd h 0x0B01 anyCmd (fun s _ _ =>
    if ¬ s.chalLife then .notReady s
    else
      let (s, v) := s.newChallenge
      { s := s, res := [v.toNat % 2 ^ 64, v.toNat / 2 ^ 64] }) s

/-- DBG_CHALLENGE. -/
def execDbgChallenge (s : State) : Res :=
  .next (s.tap .dbgChallenge fun s =>
    let (s, v) := s.newChallenge
    s.emit (.jtag 128 v.toNat))

/-- CHALLENGE_LAPSE: after 60 s. -/
def execChallengeLapse (s : State) : Res := .next { s with sec.chal := none }

/-- Check 3 of R467. -/
def State.responseOk (s : State) (b : List Byte) : Bool :=
  let key := (b.drop 0x20).take 0x60
  let signer := if s.sec.life = .sealed then s.sec.ownerHash else Config.returnKeyHash
  decide (s.sec.chal = some (BitVec.ofNat 128 (leNat (b.take 16)))) && decide (blockWord b 0x10 = s.sec.serial.toNat) &&
    decide (blockWord b 0x18 = s.sec.life.code) && decide (Config.sha384 key = signer) &&
    Config.ecdsaVerify key (b.take 0x20) ((b.drop 0x80).take 0x60)

/-- A DENIED response consumes the challenge and counts; the eighth in a row may be a tamper alarm (R469, R448). -/
def State.responseFails (s : State) : State :=
  let n := s.sec.failRun + 1
  let s := { s with sec := { s.sec with chal := none, fails := satInc s.sec.fails, failRun := n } }
  if 8 ≤ n then s.tamper 3 else s

/-- The checks of R467, and what a response that passes begins: the wipe of the scratchpads (R468). A refusal is a DENIED event of
the host, or of the debug port (R344, R441, R442). During HOLD entry the mode is answered as HOLD (R429). -/
def State.respondTo (s : State) (b : List Byte) (who : Option Bg) : State × BitVec 8 :=
  if s.serveMode = .service then (s, stIgnored)
  else if s.serveMode ≠ .run then (s, stNotReady)
  else if s.sec.verifying.isSome then (s, stBusy)
  else if ¬ s.responseOk b then
    ((match who with | some g => s.deny 0 g.host 10 0x0B02 | none => s.deny 6 0 10 0x0B02).responseFails, stDenied)
  else
    ({ s.startWipe with sec := { s.sec with chal := none, fails := 0, failRun := 0, verifying := some who } }, stQueued)

/-- DEBUG_UNLOCK. -/
def debugUnlock (s : State) (h : Nat) (c : Cmd) : Ans :=
  if ¬ s.chalLife then .notReady s
  else
    match readBlock s h c 0 224 with
    | (_, .error a) => a
    | (s, .ok b) =>
      let (s, st) := s.respondTo b (some (c.bg h))
      { s := s, status := st }

def execDebugUnlock (h : HostId) (s : State) : Res := runCmd h 0x0B02 anyCmd debugUnlock s

/-- DBG_RESPONSE: the result of a refused response reaches LAST_RESULT at once. -/
def execDbgResponse (block : List Byte) (s : State) : Res :=
  .next (s.tap .dbgResponse fun s =>
    let (s, st) := s.respondTo block none
    if st = stQueued then s else { s with dbg.last := st.setWidth 4 })

/-- DEBUG_UNLOCK_COMPLETE: steps 3 and 4 of R468, once the wipe has passed its check. One that falls into HOLD entry waits (R429). -/
def execDebugUnlockComplete (s : State) : Res :=
  match s.sec.verifying with
  | none => .next s
  | some who =>
    if s.mem.wiping ∨ s.serveMode ≠ .run then .next s
    else
      let s : State := { s with sec := { s.sec with verifying := none, keyRam := none, unlocked := true } }
      let s := (s.freshSecure.setMode .service).allEvent 0x0B01 []
      match who with
      | some b => .next (s.finish b stOk)
      | none => .next { s with dbg.last := 0 }

/-! ## Key programming (R470) -/

/-- KEY_PROGRAM. DESIGN CHOICE (log 28): one that arrives while another is in progress is not taken. -/
def execKeyProgram (target : BitVec 8) (key : BitVec 256) (s : State) : Res :=
  .next (s.tap .keyProgram fun s => if s.dbg.key.isSome then s else { s with dbg.key := some (target, key) })

/-- KEY_PROGRAM_DONE: the key is programmed and the result reaches LAST_RESULT. -/
def execKeyProgramDone (s : State) : Res :=
  match s.dbg.key with
  | none => .next s
  | some (target, key) =>
    let fin := fun (s : State) (st : BitVec 8) => Host.Outcome.next { s with dbg := { s.dbg with key := none, last := st.setWidth 4 } }
    if target = 1 then
      if s.sec.efuse.isSome then fin s stBusy else fin { s with sec.efuse := some key } stOk
    else if target = 2 then
      if s.sec.vbat then fin { s with sec.keyRam := some key } stOk else fin s stNotReady
    else fin s stBadArg

/-! ## Run control (R460-R464) -/

def EngState.code : EngState → Nat
  | .idle => 0 | .running => 1 | .haltPending => 2 | .halted => 3 | .stepping => 4

/-- DBG_ESTAT. -/
def Engine.estat (x : Engine) : Nat :=
  pack [(x.st.code, 61), (x.cause.toNat, 58), (x.cmp.toNat, 55), (bit x.forced, 54), (bit x.task.isSome, 53), (x.pc.toNat, 42),
    (x.task.getD 0, 29), (x.waddr.toNat, 11)]

/-- RESUME: the engine leaves HALTED and its watchdog is reloaded (R180). -/
def State.engResume (s : State) (e : Nat) : State :=
  let x := s.eng e
  if x.st ≠ .halted then s
  else
    s.setEng e { x with
      st := if x.task.isSome then .running else .idle, skipBreak := true, wdog := (s.row (engRow e)).period
      wdogOn := x.task.isSome }

/-- STEP: one instruction of the task held; ignored on an engine that is not HALTED. -/
def State.engStep (s : State) (e : Nat) : State :=
  let x := s.eng e
  if x.st = .halted ∧ x.task.isSome then s.setEng e { x with st := .stepping, skipBreak := true } else s

/-- ENGINE_HALT_REQUEST: the debugger's HALT. -/
def execEngineHaltRequest (e : EngineId) (s : State) : Res := if s.dbgOpen then .next (s.haltRequest e 1) else .next s

/-- An engine stands at an instruction boundary: not inside a REPEAT, its clock not stopped by HOLD (R170). -/
def State.atBoundary (s : State) (e : Nat) : Bool := s.alive && decide (s.pwr.mode ≠ .hold) && (s.eng e).rep.isNone

/-- ENGINE_HALTED: the pending halt takes effect, unless a locked sequence defers it. -/
def execEngineHalted (e : EngineId) (s : State) : Res :=
  let x := s.eng e
  if x.st = .haltPending ∧ s.atBoundary e ∧ ¬ x.locked then .next (s.doHalt e x.reqCause false) else .next s

/-- HALT_FORCE_TIMEOUT: the locked sequence has not ended within 64 cycles; its reservation is cancelled (R174). -/
def execHaltForceTimeout (e : EngineId) (s : State) : Res :=
  let x := s.eng e
  if x.st = .haltPending ∧ s.atBoundary e ∧ x.locked then
    .next ((s.setEng e { x with resv := none, locked := false }).doHalt e x.reqCause true)
  else .next s

def execEngineResume (e : EngineId) (s : State) : Res := if s.dbgOpen then .next (s.engResume e) else .next s
def execEngineStep (e : EngineId) (s : State) : Res := if s.dbgOpen then .next (s.engStep e) else .next s

/-- DBG_HALT_N_LOW: every member of the cross-trigger group receives a halt request. -/
def execDbgHaltNLow (s : State) : Res :=
  .next (each ((s.stp.eng.ents.filter fun g => g.2.xtrig).map (·.1)) (fun g s => s.haltRequest g 5) s)

/-- Bits that a comparator holds. -/
def cmpMask : BitVec 64 := 0xE00003FFFF03FFFF

/-- A run-control register, read: none ends the access with ERROR. Call stack entry 0 is the first pushed (log 28). -/
def State.runRead (s : State) (e o : Nat) : Option Nat :=
  let x := s.eng e
  let held := fun v : Nat => if x.st = .halted then some v else none
  if o = 0 then some (bit x.xtrig * 128)
  else if o = 8 then some x.estat
  else if rng o 0x600 0x63F then some (if (o - 0x600) / 8 < Engine.cmpCount e then (x.cmps.get 0 ((o - 0x600) / 8)).toNat else 0)
  else if rng o 0x100 0x17F then held (x.w.get 0 ((o - 0x100) / 8)).toNat
  else if rng o 0x180 0x1BF then
    let a := x.accOf ((o - 0x180) / 16)
    held (if (o - 0x180) / 8 % 2 = 0 then a.re.toNat else a.im.toNat)
  else if rng o 0x1C0 0x1FF then held (x.a.get 0 ((o - 0x1C0) / 8)).toNat
  else if rng o 0x200 0x23F then held (x.m.get 0 ((o - 0x200) / 8)).toNat
  else if rng o 0x240 0x27F then
    let c := (o - 0x240) / 8
    held (if 6 ≤ c ∧ ¬ isLead e then 0 else s.special e c)
  else if rng o 0x280 0x2BF then held (x.stack.get 0 ((o - 0x280) / 8)).toNat
  else if rng o 0x300 0x4FF then held (if isLead e then (x.v.get 0 ((o - 0x300) / 8)).toNat else 0)
  else some 0

/-- A write to a data register of a halted engine. -/
def Engine.runWrite (x : Engine) (lead : Bool) (o : Nat) (v : BitVec 64) : Engine :=
  if rng o 0x100 0x17F then { x with w := x.w.set 0 ((o - 0x100) / 8) v }
  else if rng o 0x180 0x1BF then
    let n := (o - 0x180) / 16
    x.setAcc n (if (o - 0x180) / 8 % 2 = 0 then { x.accOf n with re := v.setWidth 48 } else { x.accOf n with im := v.setWidth 48 })
  else if rng o 0x1C0 0x1FF then { x with a := x.a.set 0 ((o - 0x1C0) / 8) (v.setWidth 24) }
  else if rng o 0x200 0x23F then { x with m := x.m.set 0 ((o - 0x200) / 8) (v.setWidth 32) }
  else if rng o 0x240 0x27F then
    let c := (o - 0x240) / 8
    if 6 ≤ c ∧ ¬ lead then x else x.setSpecial c (v.toNat % 2 ^ 32)
  else if rng o 0x280 0x2BF then { x with stack := x.stack.set 0 ((o - 0x280) / 8) (v.setWidth 11) }
  else if rng o 0x300 0x4FF ∧ lead then { x with v := x.v.set 0 ((o - 0x300) / 8) v }
  else x

/-- DBG_ECTRL: XTRIG; HALT wins over RESUME. -/
def State.ectrl (s : State) (e : Nat) (v : BitVec 64) : State :=
  let s := s.updEng e fun x => { x with xtrig := v.getLsbD 7 }
  if v.getLsbD 0 then s.haltRequest e 1
  else if v.getLsbD 1 then s.engResume e
  else if v.getLsbD 2 then s.engStep e
  else s

/-- Space 0x5, write: false ends the access with ERROR. -/
def State.runPut (s : State) (e o : Nat) (v : BitVec 64) : State × Bool :=
  if o = 0 then (s.ectrl e v, true)
  else if rng o 0x600 0x63F then
    let k := (o - 0x600) / 8
    (if k < Engine.cmpCount e then s.updEng e fun x => { x with cmps := x.cmps.set 0 k (v &&& cmpMask) } else s, true)
  else if rng o 0x100 0x4FF then
    if (s.eng e).st = .halted then (s.updEng e fun x => x.runWrite (isLead e) o v, true) else (s, false)
  else (s, true)

/-! ## The warden (R465) -/

def State.haltWarden (s : State) : State := { s with wrd.halted := true }

/-- RESUME: held doorbells are accepted. -/
def State.resumeWarden (s : State) : State :=
  if s.wrd.halted then each (List.range 5) (fun h s => s.heldDoorbell h) { s with wrd.halted := false } else s

def execWardenHalt (s : State) : Res := if s.dbgOpen then .next s.haltWarden else .next s
def execWardenResume (s : State) : Res := if s.dbgOpen then .next s.resumeWarden else .next s

/-! ## The bus master (R457-R459) -/

/-- The queue head or its tag (space 0x4): the head of any enabled queue (R505). -/
def State.dbgQueue (s : State) (a : Nat) : Nat × BitVec 3 :=
  let q := fld a 0 17
  if ¬ (q < 98304 ∧ s.qEnabled q) then (0, hsRange)
  else if ¬ (s.mea (q / 512)).gate.isOpen ∨ s.qCol q ≠ .on then (0, hsError)
  else
    let x := s.queue q
    (if fld a 20 1 = 0 then (match x.head with | some w => w.data.toNat | none => 0) else x.headTag, hsOk)

/-- A read of 8 bytes begins; outside spaces 0x1 and 0x2 it ends at once. Every register returns its value to a debug read (R9):
the doorbell page, whose registers take 4-byte accesses (R324), returns the two registers of the 8 bytes. DESIGN CHOICE (log 28). -/
def State.dbgRead (s : State) (a : Nat) : State :=
  let off := fld a 0 24
  let e := fld a 16 9
  match fld a 60 4 with
  | 1 => s.dread (s.asker .debug) 0 (fld a 0 56) 8 true
  | 2 => s.bread (s.asker .debug) 0 (fld a 0 20) (fld a 20 36) 8
  | 3 =>
    match s.admitAcc s.pwr.owner off (if off / 0x1000 = 6 ∧ off % 8 = 0 then 4 else 8) false with
    | .serve => let (s, v) := s.regWord s.pwr.owner off; s.dbgEnd hsOk v
    | _ => s.dbgEnd hsOk 0
  | 4 => let (v, st) := s.dbgQueue a; s.dbgEnd st v
  | 5 => match s.runRead e (fld a 0 12) with | some v => s.dbgEnd hsOk v | none => s.dbgEnd hsError 0
  | 6 =>
    let k := 2048 * e + fld a 0 11
    if s.mem.pmemBad.get false k then (s.memUncorrectable 4 e (fld a 0 11) 0).dbgEnd hsError 0 else s.dbgEnd hsOk (s.mem.pmem.get 0 k).toNat
  | 7 => s.dbgEnd hsOk (if fld a 0 12 = 8 then bit s.wrd.halted else 0)
  | _ => s.dbgEnd hsRange 0

/-- A write of 8 bytes begins. -/
def State.dbgWrite (s : State) (a : Nat) (v : BitVec 64) : State :=
  let off := fld a 0 24
  let e := fld a 16 9
  let all := List.replicate 8 true
  match fld a 60 4 with
  | 1 => s.dwrite (s.asker .debug) 0 (fld a 0 56) (leBytes 8 v.toNat) all
  | 2 => s.bwrite (s.asker .debug) 0 (fld a 0 20) (fld a 20 36) (leBytes 8 v.toNat) all
  | 3 =>
    if rng off 0x1000 0x7FFF ∨ 0x800000 ≤ off then s.dbgEnd hsRange 0
    else (s.bar0Write s.pwr.owner off 8 v.toNat).dbgEnd hsOk 0
  | 5 => let (t, ok) := s.runPut e (fld a 0 12) v; t.dbgEnd (if ok then hsOk else hsError) 0
  | 6 =>
    let k := 2048 * e + fld a 0 11
    if (s.eng e).st ≠ .halted then s.dbgEnd hsError 0
    else
      ({ s with mem := { s.mem with pmem := s.mem.pmem.set 0 k v, pmemBad := s.mem.pmemBad.set false k false } }).dbgEnd hsOk 0
  | 7 =>
    if fld a 0 12 ≠ 0 then s.dbgEnd hsOk 0
    else if v.getLsbD 0 then s.haltWarden.dbgEnd hsOk 0
    else if v.getLsbD 1 then s.resumeWarden.dbgEnd hsOk 0
    else s.dbgEnd hsOk 0
  | _ => s.dbgEnd hsRange 0

/-- The access register as captured: STATUS, ADDR of the last completed operation, its data. -/
def Debug.captured (x : Debug) : Nat :=
  pack [(if x.op.isSome then 8 else x.status.toNat, 128), (x.addr.toNat, 64), (x.data.toNat, 0)]

/-- Capture-DR of the access register. -/
def State.dbgCapture (s : State) : State := s.emit (.jtag 132 s.dbg.captured)

/-- Update-DR of the access register: an operation begins at its address, or at the one the last left; not while one is in
progress. -/
def State.dbgBegin (s : State) (addr : BitVec 64) (inc : Bool) (act : State → Nat → State) : State :=
  if s.dbg.op.isSome then s
  else
    let a := if addr = BitVec.allOnes 64 then s.dbg.next else addr
    act { s with dbg := { s.dbg with op := some a, next := if inc then a + 8 else a } } a.toNat

/-- One scan of DBG_ACCESS: what the last operation left is captured, and a new one begins. A locked port with the instruction
still current ends it DENIED and counts (R459). -/
def State.dbgAccess (s : State) (addr : BitVec 64) (inc : Bool) (act : State → Nat → State) : State :=
  if ¬ s.dbgUp then s
  else if ¬ s.dbgOpen ∧ s.dbg.ir = .dbgAccess then
    s.dbgCapture.dbgBegin addr inc fun s _ => s.dbgRefused.dbgEnd hsDenied 0
  else s.tap .dbgAccess fun s => s.dbgCapture.dbgBegin addr inc act

/-- DBG_ACCESS_READ. OP 0x0 captures alone, and an OP of no operation ends RANGE (R457); a code of no instruction selects bypass and
counts (R454). -/
def execDbgAccessRead (scan : DbgScan) (s : State) : Res :=
  match scan with
  | .read addr => .next (s.dbgAccess addr false State.dbgRead)
  | .noOp _ addr => .next (s.dbgAccess addr false fun s _ => s.dbgEnd hsRange 0)
  | .capture =>
    .next (if s.dbgUp ∧ s.dbg.ir = .dbgAccess then s.dbgCapture else s.tap .dbgAccess State.dbgCapture)
  | .noInstr _ => .next (if s.dbgUp then (s.setIr .bypass).dbgRefused.emit (.jtag 1 0) else s)
def execDbgAccessWrite (addr data : BitVec 64) (s : State) : Res := .next (s.dbgAccess addr false fun s a => s.dbgWrite a data)
def execDbgAccessReadInc (addr : BitVec 64) (s : State) : Res := .next (s.dbgAccess addr true State.dbgRead)
def execDbgAccessWriteInc (addr data : BitVec 64) (s : State) : Res := .next (s.dbgAccess addr true fun s a => s.dbgWrite a data)

end Sys2Proof.Machine
end

