-- ==== Sys2Proof/Machine/Dispatch.lean ====
section
/-! DEFINITION. One arm per command: each calls the command's meaning. -/

namespace Sys2Proof.Machine

def exec (i : Instr) (s : State) : Host.Outcome State Fault Refusal :=
  match i with
  | .deviceQuery h => Sys2Proof.Machine.execDeviceQuery h s
  | .nop h => Sys2Proof.Machine.execNop h s
  | .deviceReset h => Sys2Proof.Machine.execDeviceReset h s
  | .delayedDeviceReset => Sys2Proof.Machine.execDelayedDeviceReset s
  | .eventMaskSet h => Sys2Proof.Machine.execEventMaskSet h s
  | .worldSet h => Sys2Proof.Machine.execWorldSet h s
  | .worldQuery h => Sys2Proof.Machine.execWorldQuery h s
  | .configLoad h => Sys2Proof.Machine.execConfigLoad h s
  | .recoatLoad h => Sys2Proof.Machine.execRecoatLoad h s
  | .recoatLoadDone => Sys2Proof.Machine.execRecoatLoadDone s
  | .recoatDiscard h => Sys2Proof.Machine.execRecoatDiscard h s
  | .meadowQuery h => Sys2Proof.Machine.execMeadowQuery h s
  | .configReadback h => Sys2Proof.Machine.execConfigReadback h s
  | .configReadbackDone hh upset => Sys2Proof.Machine.execConfigReadbackDone hh upset s
  | .timelineDiscipline h => Sys2Proof.Machine.execTimelineDiscipline h s
  | .timelineSet h => Sys2Proof.Machine.execTimelineSet h s
  | .timelineStep h => Sys2Proof.Machine.execTimelineStep h s
  | .timelineAdjust h => Sys2Proof.Machine.execTimelineAdjust h s
  | .gridDefine h => Sys2Proof.Machine.execGridDefine h s
  | .cueArm h => Sys2Proof.Machine.execCueArm h s
  | .cueDisarm h => Sys2Proof.Machine.execCueDisarm h s
  | .cueQuery h => Sys2Proof.Machine.execCueQuery h s
  | .flowCreate h => Sys2Proof.Machine.execFlowCreate h s
  | .flowDelete h => Sys2Proof.Machine.execFlowDelete h s
  | .flowEnable h => Sys2Proof.Machine.execFlowEnable h s
  | .flowDisable h => Sys2Proof.Machine.execFlowDisable h s
  | .flowRestart h => Sys2Proof.Machine.execFlowRestart h s
  | .flowSourceSwitch h => Sys2Proof.Machine.execFlowSourceSwitch h s
  | .flowQuery h => Sys2Proof.Machine.execFlowQuery h s
  | .portBlockSet h => Sys2Proof.Machine.execPortBlockSet h s
  | .portEnable h => Sys2Proof.Machine.execPortEnable h s
  | .portDisable h => Sys2Proof.Machine.execPortDisable h s
  | .sdiPortSet h => Sys2Proof.Machine.execSdiPortSet h s
  | .laneConfigure h => Sys2Proof.Machine.execLaneConfigure h s
  | .poolClassDefine h => Sys2Proof.Machine.execPoolClassDefine h s
  | .bufferAlloc h => Sys2Proof.Machine.execBufferAlloc h s
  | .bufferFree h => Sys2Proof.Machine.execBufferFree h s
  | .bufferMigrate h => Sys2Proof.Machine.execBufferMigrate h s
  | .bufferQuery h => Sys2Proof.Machine.execBufferQuery h s
  | .poolExclude h => Sys2Proof.Machine.execPoolExclude h s
  | .poolExcludeLift h => Sys2Proof.Machine.execPoolExcludeLift h s
  | .apertureMap h => Sys2Proof.Machine.execApertureMap h s
  | .apertureUnmap h => Sys2Proof.Machine.execApertureUnmap h s
  | .apertureQuery h => Sys2Proof.Machine.execApertureQuery h s
  | .queueSetup h => Sys2Proof.Machine.execQueueSetup h s
  | .queueQuery h => Sys2Proof.Machine.execQueueQuery h s
  | .queueWindowMap h => Sys2Proof.Machine.execQueueWindowMap h s
  | .queueWindowUnmap h => Sys2Proof.Machine.execQueueWindowUnmap h s
  | .hbmMapSet h => Sys2Proof.Machine.execHbmMapSet h s
  | .hbmQosSet h => Sys2Proof.Machine.execHbmQosSet h s
  | .hbmSrSet h => Sys2Proof.Machine.execHbmSrSet h s
  | .hbmRetrain h => Sys2Proof.Machine.execHbmRetrain h s
  | .hbmRetrainRun p => Sys2Proof.Machine.execHbmRetrainRun p s
  | .hbmRetrainDone p ok spares => Sys2Proof.Machine.execHbmRetrainDone p ok spares s
  | .scrimRegionSet h => Sys2Proof.Machine.execScrimRegionSet h s
  | .scrimKeyRoll h => Sys2Proof.Machine.execScrimKeyRoll h s
  | .scrimShareSet h => Sys2Proof.Machine.execScrimShareSet h s
  | .rowLoad h => Sys2Proof.Machine.execRowLoad h s
  | .rowLoadDone r => Sys2Proof.Machine.execRowLoadDone r s
  | .rowConfigure h => Sys2Proof.Machine.execRowConfigure h s
  | .rowReset h => Sys2Proof.Machine.execRowReset h s
  | .engineReset h => Sys2Proof.Machine.execEngineReset h s
  | .taskEntrySet h => Sys2Proof.Machine.execTaskEntrySet h s
  | .taskEntryClear h => Sys2Proof.Machine.execTaskEntryClear h s
  | .taskEntryRetry h => Sys2Proof.Machine.execTaskEntryRetry h s
  | .taskEntryQuery h => Sys2Proof.Machine.execTaskEntryQuery h s
  | .schedTickSet h => Sys2Proof.Machine.execSchedTickSet h s
  | .modeSetHold h => Sys2Proof.Machine.execModeSetHold h s
  | .modeSetRun h => Sys2Proof.Machine.execModeSetRun h s
  | .memPowerSet h => Sys2Proof.Machine.execMemPowerSet h s
  | .memColumnStateChange m => Sys2Proof.Machine.execMemColumnStateChange m s
  | .memColumnOnComplete m => Sys2Proof.Machine.execMemColumnOnComplete m s
  | .clockSwitch h => Sys2Proof.Machine.execClockSwitch h s
  | .clockSwitchPref h => Sys2Proof.Machine.execClockSwitchPref h s
  | .clockSwitchComplete g forced => Sys2Proof.Machine.execClockSwitchComplete g forced s
  | .clockGate h => Sys2Proof.Machine.execClockGate h s
  | .clockUngate h => Sys2Proof.Machine.execClockUngate h s
  | .clockGateClosed code => Sys2Proof.Machine.execClockGateClosed code s
  | .loopConfigure h => Sys2Proof.Machine.execLoopConfigure h s
  | .fabricLoopLock l => Sys2Proof.Machine.execFabricLoopLock l s
  | .freqMeasure h => Sys2Proof.Machine.execFreqMeasure h s
  | .scrubControl h => Sys2Proof.Machine.execScrubControl h s
  | .scrubControlResume h => Sys2Proof.Machine.execScrubControlResume h s
  | .scrubQuery h => Sys2Proof.Machine.execScrubQuery h s
  | .laneCalibrate h => Sys2Proof.Machine.execLaneCalibrate h s
  | .laneCalibrationDone l ok eye => Sys2Proof.Machine.execLaneCalibrationDone l ok eye s
  | .laneSelftest h => Sys2Proof.Machine.execLaneSelftest h s
  | .laneSelftestDone l bits errors eye => Sys2Proof.Machine.execLaneSelftestDone l bits errors eye s
  | .rowSelftest h => Sys2Proof.Machine.execRowSelftest h s
  | .rowSelftestRun r => Sys2Proof.Machine.execRowSelftestRun r s
  | .rowSelftestDone r ok => Sys2Proof.Machine.execRowSelftestDone r ok s
  | .gpioRetry h => Sys2Proof.Machine.execGpioRetry h s
  | .debugChallenge h => Sys2Proof.Machine.execDebugChallenge h s
  | .debugUnlock h => Sys2Proof.Machine.execDebugUnlock h s
  | .debugUnlockComplete => Sys2Proof.Machine.execDebugUnlockComplete s
  | .lifecycleAdvance h => Sys2Proof.Machine.execLifecycleAdvance h s
  | .lifecycleQuery h => Sys2Proof.Machine.execLifecycleQuery h s
  | .mbDoorbell h value => Sys2Proof.Machine.execMbDoorbell h value s
  | .commandStart h => Sys2Proof.Machine.execCommandStart h s
  | .rspReadSeqWrite h value => Sys2Proof.Machine.execRspReadSeqWrite h value s
  | .evtReadSeqWrite h value => Sys2Proof.Machine.execEvtReadSeqWrite h value s
  | .mbIrqMaskWrite h value => Sys2Proof.Machine.execMbIrqMaskWrite h value s
  | .tlSecRead h => Sys2Proof.Machine.execTlSecRead h s
  | .tlStatusClear h value => Sys2Proof.Machine.execTlStatusClear h value s
  | .registerWrite h off len acc => Sys2Proof.Machine.execRegisterWrite h off len acc s
  | .queueWindowPush h n prio data => Sys2Proof.Machine.execQueueWindowPush h n prio data s
  | .queueWindowPop h n value => Sys2Proof.Machine.execQueueWindowPop h n value s
  | .bar2Write h addr data be => Sys2Proof.Machine.execBar2Write h addr data be s
  | .bar2Read h addr len => Sys2Proof.Machine.execBar2Read h addr len s
  | .unitAccessTimeout h read => Sys2Proof.Machine.execUnitAccessTimeout h read s
  | .pcieConfigRequest n reg write => Sys2Proof.Machine.execPcieConfigRequest n reg write s
  | .hostLinkReset n d3hot => Sys2Proof.Machine.execHostLinkReset n d3hot s
  | .smbSetPointer msg pecOk => Sys2Proof.Machine.execSmbSetPointer msg pecOk s
  | .smbWrite bytes pecOk => Sys2Proof.Machine.execSmbWrite bytes pecOk s
  | .smbRead count pecOk => Sys2Proof.Machine.execSmbRead count pecOk s
  | .heritageDataRead h k => Sys2Proof.Machine.execHeritageDataRead h k s
  | .heritageDataWrite h k word => Sys2Proof.Machine.execHeritageDataWrite h k word s
  | .ufErasePage h page => Sys2Proof.Machine.execUfErasePage h page s
  | .ufProgramPage h page => Sys2Proof.Machine.execUfProgramPage h page s
  | .ufOperationDone => Sys2Proof.Machine.execUfOperationDone s
  | .cueTlMark k => Sys2Proof.Machine.execCueTlMark k s
  | .cueFlowSourceSwitch k => Sys2Proof.Machine.execCueFlowSourceSwitch k s
  | .cueFlowEnable k => Sys2Proof.Machine.execCueFlowEnable k s
  | .cueFlowDisable k => Sys2Proof.Machine.execCueFlowDisable k s
  | .cueRecoatSwap k => Sys2Proof.Machine.execCueRecoatSwap k s
  | .cueFabricEvent k => Sys2Proof.Machine.execCueFabricEvent k s
  | .cueQueueBankSwap k => Sys2Proof.Machine.execCueQueueBankSwap k s
  | .cueTaskRelease k => Sys2Proof.Machine.execCueTaskRelease k s
  | .cueHostEvent k => Sys2Proof.Machine.execCueHostEvent k s
  | .fabricEventDelivery m => Sys2Proof.Machine.execFabricEventDelivery m s
  | .recoatSwapEdge m => Sys2Proof.Machine.execRecoatSwapEdge m s
  | .swapForced m => Sys2Proof.Machine.execSwapForced m s
  | .maskingRelease m => Sys2Proof.Machine.execMaskingRelease m s
  | .gateHeldRequestTimeout m => Sys2Proof.Machine.execGateHeldRequestTimeout m s
  | .holdWakeTimer => Sys2Proof.Machine.execHoldWakeTimer s
  | .skewCompare => Sys2Proof.Machine.execSkewCompare s
  | .ptpMessage b msg => Sys2Proof.Machine.execPtpMessage b msg s
  | .pendingStepApply => Sys2Proof.Machine.execPendingStepApply s
  | .ppsInEdge => Sys2Proof.Machine.execPpsInEdge s
  | .ptpSyncTimeout b => Sys2Proof.Machine.execPtpSyncTimeout b s
  | .announceReceiptTimeout b => Sys2Proof.Machine.execAnnounceReceiptTimeout b s
  | .ppsLossTimeout => Sys2Proof.Machine.execPpsLossTimeout s
  | .hostDisciplineTimeout => Sys2Proof.Machine.execHostDisciplineTimeout s
  | .rootReferenceLost => Sys2Proof.Machine.execRootReferenceLost s
  | .rootCoast => Sys2Proof.Machine.execRootCoast s
  | .rootRelock => Sys2Proof.Machine.execRootRelock s
  | .coastTrim => Sys2Proof.Machine.execCoastTrim s
  | .rootLoopLock => Sys2Proof.Machine.execRootLoopLock s
  | .sourceDead src => Sys2Proof.Machine.execSourceDead src s
  | .sourceReady src => Sys2Proof.Machine.execSourceReady src s
  | .fastOscStop => Sys2Proof.Machine.execFastOscStop s
  | .fabricLoopRefLost l => Sys2Proof.Machine.execFabricLoopRefLost l s
  | .fabricLoopRelock l => Sys2Proof.Machine.execFabricLoopRelock l s
  | .delayListTick hh => Sys2Proof.Machine.execDelayListTick hh s
  | .operandWrite src n slot data => Sys2Proof.Machine.execOperandWrite src n slot data s
  | .taskReadinessEval n => Sys2Proof.Machine.execTaskReadinessEval n s
  | .taskDispatch hh => Sys2Proof.Machine.execTaskDispatch hh s
  | .taskStart e => Sys2Proof.Machine.execTaskStart e s
  | .taskCommit e => Sys2Proof.Machine.execTaskCommit e s
  | .commitBufferDelivery hh place => Sys2Proof.Machine.execCommitBufferDelivery hh place s
  | .engineWatchdogExpiry e => Sys2Proof.Machine.execEngineWatchdogExpiry e s
  | .taskAbortComplete e => Sys2Proof.Machine.execTaskAbortComplete e s
  | .hedgerowTransferEnd e place => Sys2Proof.Machine.execHedgerowTransferEnd e place s
  | .opAnop e => Sys2Proof.Machine.execOpAnop e s
  | .opCmac2 e => Sys2Proof.Machine.execOpCmac2 e s
  | .opCdot e => Sys2Proof.Machine.execOpCdot e s
  | .opXmac2 e => Sys2Proof.Machine.execOpXmac2 e s
  | .opXdot e => Sys2Proof.Machine.execOpXdot e s
  | .opRnd2 e => Sys2Proof.Machine.execOpRnd2 e s
  | .opXrnd2 e => Sys2Proof.Machine.execOpXrnd2 e s
  | .opAclr e => Sys2Proof.Machine.execOpAclr e s
  | .opAmov e => Sys2Proof.Machine.execOpAmov e s
  | .opAadd e => Sys2Proof.Machine.execOpAadd e s
  | .opExpa e => Sys2Proof.Machine.execOpExpa e s
  | .opNorma e => Sys2Proof.Machine.execOpNorma e s
  | .opAshr e => Sys2Proof.Machine.execOpAshr e s
  | .opAdd4 e => Sys2Proof.Machine.execOpAdd4 e s
  | .opSub4 e => Sys2Proof.Machine.execOpSub4 e s
  | .opBfly e => Sys2Proof.Machine.execOpBfly e s
  | .opShl4 e => Sys2Proof.Machine.execOpShl4 e s
  | .opShra4 e => Sys2Proof.Machine.execOpShra4 e s
  | .opAnd e => Sys2Proof.Machine.execOpAnd e s
  | .opOr e => Sys2Proof.Machine.execOpOr e s
  | .opXor e => Sys2Proof.Machine.execOpXor e s
  | .opMov e => Sys2Proof.Machine.execOpMov e s
  | .opConj e => Sys2Proof.Machine.execOpConj e s
  | .opSwap e => Sys2Proof.Machine.execOpSwap e s
  | .opExpw e => Sys2Proof.Machine.execOpExpw e s
  | .opCmpw e => Sys2Proof.Machine.execOpCmpw e s
  | .opMnop e => Sys2Proof.Machine.execOpMnop e s
  | .opLd e => Sys2Proof.Machine.execOpLd e s
  | .opSt e => Sys2Proof.Machine.execOpSt e s
  | .opLdh e => Sys2Proof.Machine.execOpLdh e s
  | .opSth e => Sys2Proof.Machine.execOpSth e s
  | .opLdl e => Sys2Proof.Machine.execOpLdl e s
  | .opStl e => Sys2Proof.Machine.execOpStl e s
  | .opLdb e => Sys2Proof.Machine.execOpLdb e s
  | .opLdx e => Sys2Proof.Machine.execOpLdx e s
  | .opStx e => Sys2Proof.Machine.execOpStx e s
  | .opQpush e => Sys2Proof.Machine.execOpQpush e s
  | .opToken e => Sys2Proof.Machine.execOpToken e s
  | .opCnop e => Sys2Proof.Machine.execOpCnop e s
  | .opBr e => Sys2Proof.Machine.execOpBr e s
  | .opCall e => Sys2Proof.Machine.execOpCall e s
  | .opRet e => Sys2Proof.Machine.execOpRet e s
  | .opRepeat e => Sys2Proof.Machine.execOpRepeat e s
  | .opLoop e => Sys2Proof.Machine.execOpLoop e s
  | .opEnd e => Sys2Proof.Machine.execOpEnd e s
  | .opSeta e => Sys2Proof.Machine.execOpSeta e s
  | .opSetm e => Sys2Proof.Machine.execOpSetm e s
  | .opAdda e => Sys2Proof.Machine.execOpAdda e s
  | .opCmpa e => Sys2Proof.Machine.execOpCmpa e s
  | .opMvw e => Sys2Proof.Machine.execOpMvw e s
  | .opMvs e => Sys2Proof.Machine.execOpMvs e s
  | .opMsv e => Sys2Proof.Machine.execOpMsv e s
  | .opMvaw e => Sys2Proof.Machine.execOpMvaw e s
  | .opMvwa e => Sys2Proof.Machine.execOpMvwa e s
  | .opVmov e => Sys2Proof.Machine.execOpVmov e s
  | .opWmov e => Sys2Proof.Machine.execOpWmov e s
  | .opHget e => Sys2Proof.Machine.execOpHget e s
  | .opHput e => Sys2Proof.Machine.execOpHput e s
  | .opHwait e => Sys2Proof.Machine.execOpHwait e s
  | .hedgerowBread who tag handle off len => Sys2Proof.Machine.execHedgerowBread who tag handle off len s
  | .hedgerowBwrite who tag handle off data be => Sys2Proof.Machine.execHedgerowBwrite who tag handle off data be s
  | .hedgerowDread who tag addr len => Sys2Proof.Machine.execHedgerowDread who tag addr len s
  | .hedgerowDwrite who tag addr data be => Sys2Proof.Machine.execHedgerowDwrite who tag addr data be s
  | .hedgerowQpush who q prio data => Sys2Proof.Machine.execHedgerowQpush who q prio data s
  | .hedgerowToken who n slot data => Sys2Proof.Machine.execHedgerowToken who n slot data s
  | .hedgerowQpeek who tag q => Sys2Proof.Machine.execHedgerowQpeek who tag q s
  | .hedgerowQpop who tag q seq => Sys2Proof.Machine.execHedgerowQpop who tag q seq s
  | .hedgerowResponse who tag => Sys2Proof.Machine.execHedgerowResponse who tag s
  | .hedgerowTimeout who tag => Sys2Proof.Machine.execHedgerowTimeout who tag s
  | .creditReturnMessage q slot => Sys2Proof.Machine.execCreditReturnMessage q slot s
  | .handleTranslationMiss who handle => Sys2Proof.Machine.execHandleTranslationMiss who handle s
  | .hedgerowLinkRetry edge n ok => Sys2Proof.Machine.execHedgerowLinkRetry edge n ok s
  | .hedgerowLinkRetire edge n => Sys2Proof.Machine.execHedgerowLinkRetire edge n s
  | .gateRequestIssue m req => Sys2Proof.Machine.execGateRequestIssue m req s
  | .gateTargetRequest m who peek write off data be tag => Sys2Proof.Machine.execGateTargetRequest m who peek write off data be tag s
  | .gateTargetResponse m status data => Sys2Proof.Machine.execGateTargetResponse m status data s
  | .skimPortAccess k a b => Sys2Proof.Machine.execSkimPortAccess k a b s
  | .screedPortAccess k a b => Sys2Proof.Machine.execScreedPortAccess k a b s
  | .trowelSliceUpdate m sw ins => Sys2Proof.Machine.execTrowelSliceUpdate m sw ins s
  | .fabricQueuePush k q prio ins => Sys2Proof.Machine.execFabricQueuePush k q prio ins s
  | .fabricQueuePop k rsel pop => Sys2Proof.Machine.execFabricQueuePop k rsel pop s
  | .fabricCreditReport k => Sys2Proof.Machine.execFabricCreditReport k s
  | .queueAutoSwap q => Sys2Proof.Machine.execQueueAutoSwap q s
  | .queueForwardOffer q => Sys2Proof.Machine.execQueueForwardOffer q s
  | .ioDelayStep b p inc dec => Sys2Proof.Machine.execIoDelayStep b p inc dec s
  | .ethernetFrameReceive b p fr => Sys2Proof.Machine.execEthernetFrameReceive b p fr s
  | .ingressPacket b p pkt => Sys2Proof.Machine.execIngressPacket b p pkt s
  | .mergeWaitExpiry c upTo => Sys2Proof.Machine.execMergeWaitExpiry c upTo s
  | .pathLossTimeout c pathB => Sys2Proof.Machine.execPathLossTimeout c pathB s
  | .descriptorPush c => Sys2Proof.Machine.execDescriptorPush c s
  | .egressPacketForm c => Sys2Proof.Machine.execEgressPacketForm c s
  | .egressPacketSend c => Sys2Proof.Machine.execEgressPacketSend c s
  | .sdiInputLine j line => Sys2Proof.Machine.execSdiInputLine j line s
  | .sdiOutputLine j => Sys2Proof.Machine.execSdiOutputLine j s
  | .ethLinkDown b p hiBer => Sys2Proof.Machine.execEthLinkDown b p hiBer s
  | .ethLinkUp b p fec => Sys2Proof.Machine.execEthLinkUp b p fec s
  | .laneLossOfSignal l => Sys2Proof.Machine.execLaneLossOfSignal l s
  | .laneSignalReturn l inverted => Sys2Proof.Machine.execLaneSignalReturn l inverted s
  | .hbmRefresh p => Sys2Proof.Machine.execHbmRefresh p s
  | .hbmCalibration p => Sys2Proof.Machine.execHbmCalibration p s
  | .hbmTemperatureRead st celsius => Sys2Proof.Machine.execHbmTemperatureRead st celsius s
  | .hbmPatrolRead p ups => Sys2Proof.Machine.execHbmPatrolRead p ups s
  | .hbmSelfRefreshEntry p => Sys2Proof.Machine.execHbmSelfRefreshEntry p s
  | .hbmSelfRefreshExit p => Sys2Proof.Machine.execHbmSelfRefreshExit p s
  | .hbmCeInterval => Sys2Proof.Machine.execHbmCeInterval s
  | .hbmTrainingDone failed spares => Sys2Proof.Machine.execHbmTrainingDone failed spares s
  | .migrationStep handle => Sys2Proof.Machine.execMigrationStep handle s
  | .migrationComplete handle => Sys2Proof.Machine.execMigrationComplete handle s
  | .scrimFillGranule handle => Sys2Proof.Machine.execScrimFillGranule handle s
  | .scrimCounterFold r p => Sys2Proof.Machine.execScrimCounterFold r p s
  | .scrimRollStart r => Sys2Proof.Machine.execScrimRollStart r s
  | .scrimRollStep r p => Sys2Proof.Machine.execScrimRollStep r p s
  | .scrimRollDone r => Sys2Proof.Machine.execScrimRollDone r s
  | .scrimKeyTableError r both => Sys2Proof.Machine.execScrimKeyTableError r both s
  | .scrimCounterError r leaf => Sys2Proof.Machine.execScrimCounterError r leaf s
  | .scrimPoisonWalkStep r => Sys2Proof.Machine.execScrimPoisonWalkStep r s
  | .scrubFrameRead hh read => Sys2Proof.Machine.execScrubFrameRead hh read s
  | .scrubStoreRebuild hh verified => Sys2Proof.Machine.execScrubStoreRebuild hh verified s
  | .scrubUndercoatTurn hh reads => Sys2Proof.Machine.execScrubUndercoatTurn hh reads s
  | .imageHeader => Sys2Proof.Machine.execImageHeader s
  | .bootPointerTable => Sys2Proof.Machine.execBootPointerTable s
  | .imageBlock => Sys2Proof.Machine.execImageBlock s
  | .recordPad => Sys2Proof.Machine.execRecordPad s
  | .recordFrames badVerify => Sys2Proof.Machine.execRecordFrames badVerify s
  | .recordRepeat badVerify => Sys2Proof.Machine.execRecordRepeat badVerify s
  | .recordZero badVerify => Sys2Proof.Machine.execRecordZero badVerify s
  | .recordMem => Sys2Proof.Machine.execRecordMem s
  | .recordEssmap => Sys2Proof.Machine.execRecordEssmap s
  | .recordEnd => Sys2Proof.Machine.execRecordEnd s
  | .fullLoadFailed => Sys2Proof.Machine.execFullLoadFailed s
  | .globalHoldRelease => Sys2Proof.Machine.execGlobalHoldRelease s
  | .chainLinkTrained upstream => Sys2Proof.Machine.execChainLinkTrained upstream s
  | .chainTimeout => Sys2Proof.Machine.execChainTimeout s
  | .chainStallTimeout => Sys2Proof.Machine.execChainStallTimeout s
  | .powerOnReset => Sys2Proof.Machine.execPowerOnReset s
  | .debugPowerOnReset => Sys2Proof.Machine.execDebugPowerOnReset s
  | .railGood r => Sys2Proof.Machine.execRailGood r s
  | .railFail r => Sys2Proof.Machine.execRailFail r s
  | .vbatLow => Sys2Proof.Machine.execVbatLow s
  | .cfgProgNLow => Sys2Proof.Machine.execCfgProgNLow s
  | .wardenWatchdogExpiry => Sys2Proof.Machine.execWardenWatchdogExpiry s
  | .dieEdgeTrained edge anyLink => Sys2Proof.Machine.execDieEdgeTrained edge anyLink s
  | .startupLaneCalDone failed => Sys2Proof.Machine.execStartupLaneCalDone failed s
  | .holdEntryComplete => Sys2Proof.Machine.execHoldEntryComplete s
  | .holdWakeNLow => Sys2Proof.Machine.execHoldWakeNLow s
  | .holdExitResume => Sys2Proof.Machine.execHoldExitResume s
  | .holdExitRailTimeout => Sys2Proof.Machine.execHoldExitRailTimeout s
  | .holdCueDisarm k => Sys2Proof.Machine.execHoldCueDisarm k s
  | .tamperNAlarm => Sys2Proof.Machine.execTamperNAlarm s
  | .supplyGlitchAlarm core => Sys2Proof.Machine.execSupplyGlitchAlarm core s
  | .dieOvertempAlarm hh => Sys2Proof.Machine.execDieOvertempAlarm hh s
  | .lockdownCoreSteps => Sys2Proof.Machine.execLockdownCoreSteps s
  | .deniedWindowEnd kind index res => Sys2Proof.Machine.execDeniedWindowEnd kind index res s
  | .gpioShortDetect b p => Sys2Proof.Machine.execGpioShortDetect b p s
  | .challengeLapse => Sys2Proof.Machine.execChallengeLapse s
  | .extest pins scan => Sys2Proof.Machine.execExtest pins scan s
  | .idcode => Sys2Proof.Machine.execIdcode s
  | .samplePreload pins scan => Sys2Proof.Machine.execSamplePreload pins scan s
  | .clamp => Sys2Proof.Machine.execClamp s
  | .highz => Sys2Proof.Machine.execHighz s
  | .extestPulse pins scan => Sys2Proof.Machine.execExtestPulse pins scan s
  | .extestTrain pins scan => Sys2Proof.Machine.execExtestTrain pins scan s
  | .dbgStatus => Sys2Proof.Machine.execDbgStatus s
  | .dbgChallenge => Sys2Proof.Machine.execDbgChallenge s
  | .dbgResponse block => Sys2Proof.Machine.execDbgResponse block s
  | .dbgAccessRead addr => Sys2Proof.Machine.execDbgAccessRead addr s
  | .dbgAccessWrite addr data => Sys2Proof.Machine.execDbgAccessWrite addr data s
  | .dbgAccessReadInc addr => Sys2Proof.Machine.execDbgAccessReadInc addr s
  | .dbgAccessWriteInc addr data => Sys2Proof.Machine.execDbgAccessWriteInc addr data s
  | .keyProgram target key => Sys2Proof.Machine.execKeyProgram target key s
  | .bypass => Sys2Proof.Machine.execBypass s
  | .trstNReset => Sys2Proof.Machine.execTrstNReset s
  | .engineHaltRequest e => Sys2Proof.Machine.execEngineHaltRequest e s
  | .engineHalted e => Sys2Proof.Machine.execEngineHalted e s
  | .haltForceTimeout e => Sys2Proof.Machine.execHaltForceTimeout e s
  | .engineResume e => Sys2Proof.Machine.execEngineResume e s
  | .engineStep e => Sys2Proof.Machine.execEngineStep e s
  | .dbgHaltNLow => Sys2Proof.Machine.execDbgHaltNLow s
  | .wardenHalt => Sys2Proof.Machine.execWardenHalt s
  | .wardenResume => Sys2Proof.Machine.execWardenResume s
  | .fabricClockEdge g rise ins ups => Sys2Proof.Machine.execFabricClockEdge g rise ins ups s
  | .fabricResetRelease => Sys2Proof.Machine.execFabricResetRelease s
  | .scratchpadWipeDone nonZero => Sys2Proof.Machine.execScratchpadWipeDone nonZero s
  | .freqMeasureDone src edges => Sys2Proof.Machine.execFreqMeasureDone src edges s
  | .lifecycleFusesProgrammed => Sys2Proof.Machine.execLifecycleFusesProgrammed s
  | .keyProgramDone => Sys2Proof.Machine.execKeyProgramDone s
  | .pcieLinkUp n gen width flit => Sys2Proof.Machine.execPcieLinkUp n gen width flit s
  | .sdiInputLock j std frac => Sys2Proof.Machine.execSdiInputLock j std frac s
  | .heritageSerialByte k ev => Sys2Proof.Machine.execHeritageSerialByte k ev s
  | .smbAlertResponse => Sys2Proof.Machine.execSmbAlertResponse s

end Sys2Proof.Machine
end

