-- ==== Sys2Proof/Machine/Tick.lean ====
section
/-! DEFINITION. What the timeline clock brings on an empty queue: what is due at the present edge, then the next edge. -/

namespace Sys2Proof.Machine

/-- The delay-list tick generator of a heath adds TL_INCR; the tick itself is DELAY_LIST_TICK (R48). The edge after a change of
period that the counter had passed brings it to the period exactly (R49). -/
def TickGen.advance (g : TickGen) (d : Nat) : TickGen :=
  if g.force then { g with phase := g.period * nsU, force := false } else { g with phase := g.phase + d }

/-- A watchdog that counts: its task holds the engine, which is neither HALTED nor stopped in HOLD (R178, R462). -/
def Engine.watched1us (x : Engine) : Bool := x.wdogOn && x.wdog ≠ 0 && x.st ≠ .halted

/-- One tick of the 1 us generator for the watchdogs that count. -/
def Engine.watchTick (x : Engine) : Engine := if x.watched1us then { x with wdog := x.wdog - 1 } else x

/-- The generator of the watchdogs' 1 us tick, one for all rows (log 18): it is built as R48 states. -/
def State.watchEdge (s : State) (d : Nat) : State :=
  let p := s.tl.wdPhase + d
  if p < 1000 * nsU then { s with tl.wdPhase := p }
  else
    let s := { s with tl.wdPhase := p - 1000 * nsU }
    if s.pwr.mode = .hold then s
    else each (s.stp.eng.ents.filterMap fun g => if g.2.watched1us then some g.1 else none)
      (fun e s => s.updEng e Engine.watchTick) s

/-- What is left of a pending automatic step once the servo has slewed for one edge (R31, log 12). -/
def State.stepLeft (s : State) : Option Int :=
  s.tl.stepPend.map fun d => max 0 (d - ((s.tl.incr.toNat : Int) - (incrOf s.clk.coast 0).toNat))

/-- One timeline clock edge of 2.5 ns nominal (R24): the count, the delay-list tick generators and the watchdogs' generator
advance by TL_INCR. In LOCKDOWN the timeline stops once the core-domain steps are done (R450, R506). -/
def tick (s : State) : State :=
  if s.alive then
    let d := s.tl.incr.toNat
    let s := { s with tl := { s.tl with
      now := wrapT (s.tl.now + d), stepPend := s.stepLeft, up := s.tl.up + d
      ticks := (List.range 4).foldl (fun t h => t.upd {} h fun g => g.advance d) s.tl.ticks } }
    s.watchEdge d
  else if s.pwr.lockPend then
    { s with tl := { s.tl with now := wrapT (s.tl.now + s.tl.incr.toNat), up := s.tl.up + s.tl.incr.toNat } }
  else s

/-- The cue in slot `k` launches at this edge: it is due, and HOLD does not stop its target (R40, R47). -/
def State.launchable (s : State) (k : Nat) : Bool :=
  s.cueDue k && s.alive && (s.pwr.mode ≠ .hold || (s.cue k).action = 0x0101 || (s.cue k).action = 0x0601)

/-- The row of a cue's launch. -/
def launchRow (k : CueKey) (action : Nat) : Option Instr :=
  match action with
  | 0x0101 => some (.cueTlMark k)
  | 0x0201 => some (.cueFlowSourceSwitch k)
  | 0x0202 => some (.cueFlowEnable k)
  | 0x0203 => some (.cueFlowDisable k)
  | 0x0301 => some (.cueRecoatSwap k)
  | 0x0302 => some (.cueFabricEvent k)
  | 0x0401 => some (.cueQueueBankSwap k)
  | 0x0501 => some (.cueTaskRelease k)
  | 0x0601 => some (.cueHostEvent k)
  | _ => none

/-- An armed wake from HOLD has come (R47, R432). -/
def State.wakeDue (s : State) : Bool := s.alive && decide (s.pwr.mode = .hold) && s.pwr.wakes.any fun t => decide (t ≤ s.tl.now)

/-- What is due at the present edge and has not happened: an armed wake, then a delay-list tick, then the launch of a cue, in slot
order. No edge passes before it has happened, so that a wake comes, a cue launches and a tick falls at the first edge that reaches its
time (R40, R47, R48). -/
def State.dueRow (s : State) : Option Instr :=
  if s.wakeDue then some .holdWakeTimer
  else match (List.finRange 4).find? fun h => s.alive && decide ((s.tl.ticks.get {} h.val).period * nsU ≤ (s.tl.ticks.get {} h.val).phase) with
  | some h => some (.delayListTick h)
  | none =>
    s.tl.cues.ents.findSome? fun e =>
      if h : e.1 < 16384 then (if s.launchable e.1 then launchRow ⟨e.1, h⟩ e.2.action else none) else none

/-- A cue that comes due in HOLD and does not launch there: it is disarmed at once and never launches late (R433). -/
def State.dueInHold (s : State) : Option CueKey :=
  s.tl.cues.ents.findSome? fun e =>
    if h : e.1 < 16384 then (if s.alive ∧ s.pwr.mode = .hold ∧ s.cueDue e.1 ∧ ¬ s.launchable e.1 then some ⟨e.1, h⟩ else none) else none

/-- An SDI output whose next line is 2 us away: the ring is read for it (R314). -/
def State.dueAhead (s : State) : Option Nat :=
  (List.range 32).find? fun j =>
    let x := s.sdi j
    s.alive && s.sdiRuns j && x.ahead.isNone && (match x.cur, s.tl.grids.get none x.grid with
      | some cur, some g => (match x.coming g cur with | some (t, _) => decide (t ≤ s.heathNow (j / 8) + formLead) | none => false)
      | _, _ => false)

end Sys2Proof.Machine
end

