-- ==== Sys2Proof/Machine/Step.lean ====
section
/-! DEFINITION. One step: the command at the front of the queue, or what the timeline clock brings when none waits. -/

namespace Sys2Proof.Machine

/-- Take the front command with the queue's rest; on an empty queue what is due at the present timeline clock edge happens, or
one timeline clock edge passes (log 1). -/
def step (s : State) : Host.Outcome State Fault Refusal :=
  match s.pending with
  | [] => match s.dueRow with
    | some i => exec i s
    | none => match s.dueInHold with
      | some k => execHoldCueDisarm k s
      | none => match s.dueAhead with
        | some j => .next (s.sdiAhead j)
        | none => .next (tick s)
  | c :: r => exec c { s with pending := r }

/-- Put the command a word spells at the front of the queue; the state as it is when the word spells none. -/
def State.withFetchWord (s : State) (nbits w : Nat) : State :=
  match decodeTableWord nbits w with
  | none => s
  | some c => { s with pending := c :: s.pending }

end Sys2Proof.Machine
end

