-- ==== Sys2Proof/Safety.lean ====
section
/-! DEFINITION. The terms in which statements are made: what a command answers, and the invariants of the mailbox rings. -/

namespace Sys2Proof.Machine

/-- Command `i` completes at `s`, and its next state satisfies `eff`. -/
def Yields (i : Instr) (s : State) (eff : State → Prop) : Prop := ∃ t, exec i s = .next t ∧ eff t

/-- Host `h`'s command `c` has its first response, in the ring or waiting for room: status, CAUSE, result words (R336). -/
def Gave (t : State) (h : Nat) (c : Cmd) (status : BitVec 8) (cause : BitVec 16) (res : List Nat) : Prop :=
  ∃ r : Rsp, (r ∈ (t.mb h).waiting ∨ ∃ k, (t.mb h).rsp.get {} k = r) ∧ r.seq = c.seq ∧ r.code = c.code ∧ r.tag = c.tag ∧
    r.status = status ∧ r.cause = cause ∧ r.res = res.map (BitVec.ofNat 64) ∧ r.first = true

/-- The row `i` of a mailbox command: when the warden has started command `c` of code `k` for host `h`, it answers `status`
with the result words, the command no longer runs, and the next state satisfies `eff`. -/
def Serves (s : State) (h : HostId) (k : BitVec 16) (i : Instr) (c : Cmd) (status : BitVec 8) (res : List Nat)
    (eff : State → Prop) : Prop :=
  (s.mb h).running = some c → c.code = k →
    Yields i s fun t => (t.mb h).running = none ∧ Gave t h c status 0 res ∧ eff t

/-- Nothing but the warden's records and what has left the block differs. -/
def Same (s t : State) : Prop := t = { s with wrd := t.wrd, out := t.out }

/-- The rings and the acceptance queue of a mailbox are never over their sizes (R337, R342, R347). -/
def Mbox.bounded (m : Mbox) : Prop := m.rspUsed ≤ 64 ∧ m.evUsed ≤ 256 ∧ m.accepted.length ≤ 64

/-- Every host's rings are within bounds. -/
def State.ringsBounded (s : State) : Prop := ∀ h, (s.mb h).bounded

/-- A run of the machine that has met no fault and no refusal for `n` steps. -/
def runs : Nat → State → Option State
  | 0, s => some s
  | n + 1, s =>
    match step s with
    | .next t => runs n t
    | _ => none

end Sys2Proof.Machine
end

