-- ==== Sys2Proof/Certificates/Slice0/Obligations.lean ====
section
/-! DEFINITION. What is claimed of the model, for the provers. -/

open Sys2Proof Sys2Proof.Machine

/-! ## The block's queue, its clock, its rings (log 1; 02, 15, 16) -/

/-- A step takes the command at the front of the queue and is its meaning, with the queue's rest (the model's interface,
log 1). -/
def Obligations.StepRunsFrontCommand : Prop :=
  ∀ (s : State) (c : Instr) (r : List Instr), step { s with pending := c :: r } = exec c { s with pending := r }

/-- No command touches the queue of those that wait (the model's interface, log 1). -/
def Obligations.ExecLeavesQueue : Prop := ∀ (i : Instr) (s t : State), exec i s = .next t → t.pending = s.pending

/-- R337, R342, R347: whatever a step does, no host's response ring comes to hold more than 64 slots, its event ring more
than 256, or its acceptance queue more than 64 commands. -/
def Obligations.RingsStayBounded : Prop := ∀ s t : State, s.ringsBounded → step s = .next t → t.ringsBounded

/-- The bounds of the rings hold after reset. -/
def Obligations.ResetRingsBounded : Prop := State.reset.ringsBounded

/-- R23, R40, R47, R48, R49: with no command waiting, what is due at the present timeline clock edge happens: an armed wake from
HOLD, a delay-list tick whose counter has reached its period, or the launch of a cue; no edge passes before it. In HOLD a due cue that
does not launch is disarmed (R433); the ring of an SDI output is read 2 us before its line (R314). With nothing due one edge passes:
the count rises by TL_INCR modulo 2^48 seconds, each delay-list generator adds it (or reaches its period, where a shorter period
was set below its count), and the block's other parts but the engines' watchdogs stay as they were. In LOCKDOWN, and while an
always-on rail is down, nothing changes (R420, R450) but the count while LOCKDOWN's core-domain steps wait (R506). That an empty queue
brings these is the model's choice (log 1). -/
def Obligations.IdleStepIsTimelineEdge : Prop :=
  ∀ s : State, s.pending = [] →
    (s.alive = true → s.dueRow = none → s.dueInHold = none → s.dueAhead = none → ∃ t, step s = .next t ∧ t.tl.now = (s.tl.now + s.tl.incr.toNat) % (2 ^ 48 * secU) ∧
      (∀ h < 4, let g := s.tl.ticks.get {} h
        t.tl.ticks.get {} h = if g.force then { g with phase := g.period * nsU, force := false }
          else { g with phase := g.phase + s.tl.incr.toNat }) ∧
      t.tl.cues = s.tl.cues ∧ t.fab = s.fab ∧ t.que = s.que ∧ t.net = s.net ∧ t.wrd = s.wrd ∧ t.pwr = s.pwr ∧ t.out = s.out) ∧
    (s.alive = false → s.pwr.lockPend = false → step s = .next s) ∧
    (s.alive = false → s.pwr.lockPend = true → ∃ t, step s = .next t ∧ t = { s with tl := t.tl } ∧
      t.tl = { s.tl with now := t.tl.now, up := t.tl.up } ∧ t.tl.now = (s.tl.now + s.tl.incr.toNat) % (2 ^ 48 * secU)) ∧
    (∀ i, s.dueRow = some i → step s = exec i s) ∧
    (s.alive = true → s.pwr.mode = .hold → (∃ w ∈ s.pwr.wakes, w ≤ s.tl.now) → s.dueRow = some .holdWakeTimer) ∧
    (∀ h : HeathId, s.alive = true → s.wakeDue = false → (s.tl.ticks.get {} h).period * nsU ≤ (s.tl.ticks.get {} h).phase →
      ∃ g : HeathId, s.dueRow = some (.delayListTick g) ∧ (s.tl.ticks.get {} g).period * nsU ≤ (s.tl.ticks.get {} g).phase) ∧
    (∀ k : CueKey, s.launchable k = true → (launchRow k (s.cue k).action).isSome = true → s.dueRow.isSome = true) ∧
    (∀ k, s.dueRow = none → s.dueInHold = some k → step s = exec (.holdCueDisarm k) s) ∧
    (∀ k : CueKey, s.alive = true → s.pwr.mode = .hold → s.cueDue k = true → (s.cue k).inHold = false →
      s.dueInHold.isSome = true) ∧
    (∀ j, s.dueRow = none → s.dueInHold = none → s.dueAhead = some j → step s = .next (s.sdiAhead j))

/-- R339, R422: what a power-on reset leaves in the mailboxes, the timeline, the cue slots and the modes. -/
def Obligations.ResetValues : Prop :=
  (∀ h, (State.reset.mb h).expect = 0 ∧ (State.reset.mb h).done = 0xFFFFFFFF ∧ (State.reset.mb h).ignored = 0 ∧
    (State.reset.mb h).rspW = 0 ∧ (State.reset.mb h).rspR = 0 ∧ (State.reset.mb h).evW = 0 ∧ (State.reset.mb h).evR = 0 ∧
    (State.reset.mb h).irqMask = 0) ∧
  State.reset.tl.incr = 0x280000000 ∧ State.reset.tlStatus = 0 ∧ (∀ k, (State.reset.cue k).armed = false) ∧
  (∀ h, (State.reset.tl.ticks.get {} h).period = 1000) ∧ State.reset.pwr.mode = .boot

/-- R340, R342, R345: COMMAND_START starts the oldest accepted command of a host whose previous command has its first
response written and meets no earlier command of another host; a command that fails a general check is answered at
once and runs no further.
R342, R327: a read pointer moves to any value up to its write pointer, and is ignored and counted beyond; the vector
mask takes its two bits. -/
def Obligations.MailboxRuns : Prop :=
  (∀ (s : State) (h : HostId) (c : Cmd) (r : List Cmd), (s.mb h).accepted = c :: r → (s.mb h).running = none →
    (s.mb h).waiting = [] → (s.mb h).heldBell = false → s.alive = true → s.wrd.halted = false → s.blocked h c = false →
    let s1 := s.setMb h { s.mb h with accepted := r, running := some c }
    (precheck s1 h c = none → Yields (.commandStart h) s fun t => t = s1) ∧
    (∀ st cause, precheck s1 h c = some (st, cause) →
      Yields (.commandStart h) s fun t => (t.mb h).running = none ∧ (t.mb h).accepted = r ∧
        Gave t h c st (if st = stDenied then 0 else cause) [])) ∧
  (∀ (s : State) (h : HostId) (v : BitVec 32), s.alive = true →
    ((v - (s.mb h).rspR).toNat ≤ (s.mb h).rspUsed → Yields (.rspReadSeqWrite h v) s fun t => (t.mb h).rspR = v ∧
      (t.mb h).expect = (s.mb h).expect ∧ (t.mb h).evR = (s.mb h).evR) ∧
    ((s.mb h).rspUsed < (v - (s.mb h).rspR).toNat → Yields (.rspReadSeqWrite h v) s fun t =>
      t = s.setMb h { s.mb h with ignored := satInc (s.mb h).ignored }) ∧
    ((v - (s.mb h).evR).toNat ≤ (s.mb h).evUsed → Yields (.evtReadSeqWrite h v) s fun t => (t.mb h).evR = v ∧
      (t.mb h).expect = (s.mb h).expect ∧ (t.mb h).rspR = (s.mb h).rspR) ∧
    ((s.mb h).evUsed < (v - (s.mb h).evR).toNat → Yields (.evtReadSeqWrite h v) s fun t =>
      t = s.setMb h { s.mb h with ignored := satInc (s.mb h).ignored }) ∧
    Yields (.mbIrqMaskWrite h v) s fun t => t.mb h = { s.mb h with irqMask := v.setWidth 2 })

/-- R353: the commands of group 0x01 and their results.
R442: when the 1 ms of a requester's window end with refusals counted, one event reports them and a new window opens;
with none counted the window closes. -/
def Obligations.DeviceCommandsServed : Prop :=
  (∀ (s : State) (h : HostId) (c : Cmd),
    Serves s h 0x0101 (.deviceQuery h) c stOk [s.idDevice, s.idStatus, s.tlStatus] (Same s) ∧
    Serves s h 0x0102 (.nop h) c stOk [] (Same s) ∧
    Serves s h 0x0103 (.deviceReset h) c stOk [] (fun t => Same s t ∧ t.wrd.resetDue = true) ∧
    Serves s h 0x0104 (.eventMaskSet h) c stOk [(s.mb h).evMask.toNat]
      (fun t => Same s t ∧ (t.mb h).evMask = BitVec.ofNat 12 (2 * c.f 0 1 11))) ∧
  (∀ (s : State) (kind index res n last : Nat),
    s.wrd.windows.find? (fun w => w.1 = kind && w.2.1 = index && w.2.2.1 = res) = some (kind, index, res, n, last) →
    (n = 0 → Yields (.deniedWindowEnd kind index res) s fun t => Same s t ∧ t.mb = s.mb ∧
      t.wrd.windows = s.wrd.windows.filter fun v => !(v.1 = kind && v.2.1 = index && v.2.2.1 = res)) ∧
    (n ≠ 0 → s.wrd.boot = none → Yields (.deniedWindowEnd kind index res) s fun t => Same s t ∧
      t.mb s.pwr.owner = (s.postEvent s.pwr.owner 0x0201 (deniedDetail n kind index res last) s.tl.now).mb s.pwr.owner ∧
      (kind, index, res, 0, last) ∈ t.wrd.windows))

/-! ## Timeline (02) -/

/-- The state that R503 gives for a selection of source `sel`. -/
def selectedState (st : TlMode) (sel : Nat) : TlMode :=
  match st with
  | .freerun => if sel = 0 then .freerun else .acquiring
  | .acquiring => if sel = 0 then .freerun else .acquiring
  | .locked => .holdover
  | .holdover => .holdover

/-- R27, R28, R502, R503: the happenings that discipline the timeline or end its discipline. -/
def Obligations.DisciplineHappenings : Prop :=
  ∀ (s : State) (b : BlockId), s.alive = true →
    (s.ptpNamed b = true →
      (∀ log, Yields (.ptpMessage b (.announce log true)) s fun t =>
        t.ptp b = { s.ptp b with master := true, annLog := log, annLost := false }) ∧
      (∀ log origin rx d, (s.ptp b).master = true → -7 ≤ log → log ≤ 0 → (s.ptp b).delay = some d →
        Yields (.ptpMessage b (.sync log origin rx)) s fun t =>
          (t.ptp b).syncLost = false ∧ (t.ptp b).syncLog = log ∧ (t.ptp b).offset = some (rx - origin - d)) ∧
      (∀ log origin rx, (s.ptp b).master = true → ¬ (-7 ≤ log ∧ log ≤ 0) →
        Yields (.ptpMessage b (.sync log origin rx)) s fun t => (t.ptp b).master = false ∧ (t.ptp b).syncLost = true) ∧
      ((s.ptp b).syncLost = false → Yields (.ptpSyncTimeout b) s fun t =>
        (t.ptp b).syncLost = true ∧ t.ptp b = { s.ptp b with syncLost := true }) ∧
      ((s.ptp b).annLost = false → Yields (.announceReceiptTimeout b) s fun t =>
        t.ptp b = { s.ptp b with annLost := true, master := false })) ∧
    -- in LOCKED the loss of the one source is HOLDOVER, in any other state no change of STATE
    (s.tl.sel = 2 → s.tl.ppsLast.isSome = true → Yields .ppsLossTimeout s fun t => t.tl.ppsLast = none ∧
      t.tl.state = if s.tl.state = .locked then .holdover else s.tl.state) ∧
    (s.tl.sel = 3 → Yields .hostDisciplineTimeout s fun t =>
      t.tl.state = if s.tl.state = .locked then .holdover else s.tl.state) ∧
    (s.tl.sel = 2 → Yields .ppsInEdge s fun t => t.tl.ppsLast = some t.tl.now) ∧
    -- a replica that differs by more than a tick moves one tick towards the master, one that does not stays
    (∀ h, h = 1 ∨ h = 2 ∨ h = 3 →
      Yields .skewCompare s fun t => let d := s.tl.skew.get 0 h
        t.tl.skew.get 0 h = (if (s.tl.incr.toNat : Int) < d then d - s.tl.incr.toNat
          else if d < -(s.tl.incr.toNat : Int) then d + s.tl.incr.toNat else d) ∧
        ((s.tl.incr.toNat : Int) < d → t.tl.skewFault = true)) ∧
    -- a pending automatic step is applied once no armed cue lies in its span
    (∀ d, s.tl.stepPend = some d → s.cueInSpan s.tl.now d = false →
      Yields .pendingStepApply s fun t => t.tl.stepPend = none ∧ t.tl.now = moved s.tl.now d ∧ t.tl.stepped = true) ∧
    (∀ d, s.tl.stepPend = some d → s.cueInSpan s.tl.now d = true → exec .pendingStepApply s = .next s) ∧
    -- a delay-list tick takes P from its phase counter
    (∀ hh : HeathId, let g := s.tl.ticks.get {} hh
      (g.period * nsU ≤ g.phase → Yields (.delayListTick hh) s fun t =>
        t.tl.ticks.get {} hh = { g with phase := g.phase - g.period * nsU, count := g.count + 1 }) ∧
      (g.phase < g.period * nsU → exec (.delayListTick hh) s = .next s))

/-- R503, R30, R31, R24, R36, R49: the timeline's commands.
R31, R32: no step of the timeline by command makes an armed cue's launch time pass: a cue that is not due before the
step is not due after it unless the refused span held it. -/
def Obligations.TimelineCommandsServed : Prop :=
  (∀ (s : State) (h : HostId) (c : Cmd),
    -- a selection changes STATE as the table of R503 gives; one that repeats the settings changes neither STATE nor SOURCE
    (¬ (c.f 0 0 2 = s.tl.sel ∧ c.f 0 4 2 = s.tl.primary ∧ c.f 0 6 2 = s.tl.secondary ∧ decide (c.f 0 8 1 = 1) = s.tl.secUsed ∧
        BitVec.ofNat 7 (c.f 0 16 7) = s.tl.domain) →
      Serves s h 0x0401 (.timelineDiscipline h) c stOk [] fun t =>
        t.tl.sel = c.f 0 0 2 ∧ t.tl.primary = c.f 0 4 2 ∧ t.tl.secondary = c.f 0 6 2 ∧
        t.tl.secUsed = decide (c.f 0 8 1 = 1) ∧ t.tl.autoStep = decide (c.f 0 9 1 = 1) ∧
        t.tl.domain = BitVec.ofNat 7 (c.f 0 16 7) ∧ t.tl.state = selectedState s.tl.state (c.f 0 0 2) ∧
        t.tl.now = s.tl.now ∧ t.tl.incr = s.tl.incr) ∧
    (c.f 0 0 2 = s.tl.sel → c.f 0 4 2 = s.tl.primary → c.f 0 6 2 = s.tl.secondary → decide (c.f 0 8 1 = 1) = s.tl.secUsed →
        BitVec.ofNat 7 (c.f 0 16 7) = s.tl.domain →
      Serves s h 0x0401 (.timelineDiscipline h) c stOk [] (Same { s with tl.autoStep := decide (c.f 0 9 1 = 1) })) ∧
    -- a step by command: refused when its span passes over an armed cue, else it sets STEPPED and the time
    (∀ d : Int, d = (c.f 0 0 48 * secU + c.f 1 0 30 * nsU : Nat) - (s.tl.now : Int) → c.f 1 0 30 ≤ 999999999 →
      (s.cueInSpan s.tl.now d = true → Serves s h 0x0402 (.timelineSet h) c stBusy [] (Same s)) ∧
      (s.cueInSpan s.tl.now d = false → Serves s h 0x0402 (.timelineSet h) c stOk [] fun t =>
        Same { s with net.sdi := t.net.sdi, tl := { s.tl with
          now := c.f 0 0 48 * secU + c.f 1 0 30 * nsU, stepped := true, stepPend := none, adjNext := none
          ppsLast := s.tl.ppsLast.map fun p => moved p d } } t ∧
        (∀ j, (s.sdi j).out = false → t.sdi j = s.sdi j) ∧
        (s.net.sdi.keys.Nodup → ∀ j, t.sdi j = (s.sdi j).stepped d))) ∧
    (∀ d : Int, d = sgn 64 (c.arg 0) * nsU →
      (s.cueInSpan s.tl.now d = true → Serves s h 0x0403 (.timelineStep h) c stBusy [] (Same s)) ∧
      (s.cueInSpan s.tl.now d = false → Serves s h 0x0403 (.timelineStep h) c stOk [] fun t =>
        Same { s with net.sdi := t.net.sdi, tl := { s.tl with
          now := moved s.tl.now d, stepped := true, stepPend := none, adjNext := none
          ppsLast := s.tl.ppsLast.map fun p => moved p d } } t ∧
        (∀ j, (s.sdi j).out = false → t.sdi j = s.sdi j) ∧
        (s.net.sdi.keys.Nodup → ∀ j, t.sdi j = (s.sdi j).stepped d))) ∧
    -- the host's adjustment, in force at once or when a step that waits has been applied
    (s.tl.source = 6 → Serves s h 0x0404 (.timelineAdjust h) c stOk [] fun t =>
      (t.tl.stepPend = none → t.tl.adj = sgn 32 (c.f 0 0 32) ∧ t.tl.incr = incrOf s.clk.coast (sgn 32 (c.f 0 0 32))) ∧
      (t.tl.stepPend ≠ none → t.tl.adjNext = some (sgn 32 (c.f 0 0 32)))) ∧
    (s.tl.source ≠ 6 → Serves s h 0x0404 (.timelineAdjust h) c stNotReady [] (Same s)) ∧
    -- a grid is defined unless an armed cue refers to it
    ((s.tl.cues.ents.any fun e => decide (e.2.grid = some (c.f 0 0 4))) = false →
      Serves s h 0x0405 (.gridDefine h) c stOk [] fun t => t.tl.grids.get none (c.f 0 0 4) = some
        { num := c.f 1 0 20, den := c.f 1 32 20, lines := c.f 0 16 14, switch1 := c.f 0 32 14, switch2 := c.f 0 48 14,
          lineOff := c.f 2 0 32, phase := sgn 64 (c.arg 3) } ∧ t.tl.cues = s.tl.cues ∧ t.tl.now = s.tl.now) ∧
    ((s.tl.cues.ents.any fun e => decide (e.2.grid = some (c.f 0 0 4))) = true →
      Serves s h 0x0405 (.gridDefine h) c stBusy [] (Same s)) ∧
    -- a new tick period counts from the last tick, also from one that is due and not yet given; a counter that has reached the
    -- new period ticks at the next edge
    Serves s h 0x0809 (.schedTickSet h) c stOk [] fun t =>
      let g := s.tl.ticks.get {} (c.f 0 0 2)
      let p := c.f 1 0 20
      let u := t.tl.ticks.get {} (c.f 0 0 2)
      u.period = p ∧ u.count = g.count ∧ (∀ k, k ≠ c.f 0 0 2 → t.tl.ticks.get {} k = s.tl.ticks.get {} k) ∧
      (g.period * nsU ≤ g.phase → u.phase = p * nsU + (g.phase - g.period * nsU) ∧ u.force = g.force) ∧
      (g.phase < g.period * nsU → g.phase < p * nsU → u.phase = g.phase ∧ u.force = g.force) ∧
      (g.phase < g.period * nsU → p * nsU ≤ g.phase → u.phase = p * nsU - 1 ∧ u.force = true)) ∧
  (∀ (s t : State) (h : HostId) (c : Cmd) (k : Nat), (s.mb h).running = some c → c.code = 0x0402 ∨ c.code = 0x0403 →
    c.f 1 0 30 ≤ 999999999 → (s.cue k).armed = true → s.tl.now < (s.cue k).launch →
    exec (if c.code = 0x0402 then .timelineSet h else .timelineStep h) s = .next t →
    (c.code = 0x0403 → (s.tl.now : Int) + sgn 64 (c.arg 0) * nsU < (2 ^ 48 * secU : Nat) ∧
      0 ≤ (s.tl.now : Int) + sgn 64 (c.arg 0) * nsU) →
    t.tl.now < (t.cue k).launch ∧ t.cue k = s.cue k)

/-! ## Cues (02) -/

/-- R39, R41, R38: CUE_ARM arms the lowest free slot when no check of R39 refuses it; CUE_DISARM frees the slot of a handle
that names an armed cue of the current generation; CUE_QUERY returns the entry. -/
def Obligations.CueCommandsServed : Prop :=
  ∀ (s : State) (h : HostId) (c : Cmd),
    (∀ k, let x : Cue := { entry := c.cueEntry }
      let y : Cue := { x with
        armed := true, world := c.world, host := h, frame := (s.firstLaunch x).1, launch := (s.firstLaunch x).2,
        left := if x.onGrid then x.repeats else 0 }
      s.actionFault x = none → s.gridFault x = none → s.cueDenied y c.world = none → s.cueConflict y = false →
      (y.action = 0x0301 → (s.mea y.target).ucState = .verified ∨ (s.mea y.target).ucState = .previous) →
      s.freeSlot y.heath = some k →
      (y.launch < s.heathNow y.heath + 2000 * nsU → Serves s h 0x0406 (.cueArm h) c stLate [] (Same s)) ∧
      (s.heathNow y.heath + 2000 * nsU ≤ y.launch → Serves s h 0x0406 (.cueArm h) c stOk [(s.cue k).gen.toNat * 2 ^ 24 + k % 16384]
        fun t => t.cue k = { y with gen := (s.cue k).gen, launched := (s.cue k).launched } ∧ ∀ j ≠ k, t.cue j = s.cue j)) ∧
    (∀ k, k = c.f 0 0 14 → (s.cue k).armed = true → (s.cue k).gen = BitVec.ofNat 8 (c.f 0 24 8) →
      ((s.cue k).host = h.val ∨ s.pwr.owner = h.val) →
      (s.cueDue k = false → (s.cue k).ran ≠ some s.tl.up → Serves s h 0x0407 (.cueDisarm h) c stOk []
        fun t => t.cue k = { gen := (s.cue k).gen + 1 } ∧ ∀ j ≠ k, t.cue j = s.cue j) ∧
      (s.cueDue k = true ∨ (s.cue k).ran = some s.tl.up → Serves s h 0x0407 (.cueDisarm h) c stLate [] (Same s))) ∧
    (∀ k, k = c.f 0 0 14 → (s.cue k).armed = true → (s.cue k).gen = BitVec.ofNat 8 (c.f 0 24 8) →
      (c.world = true ∨ (s.cue k).world = false →
        Serves s h 0x0408 (.cueQuery h) c stOk ((List.range 4).map fun i => fld (s.cue k).word (64 * i) 64) (Same s)))

/-- What the launch of a due cue with its last repeat leaves in its slot: free, the next generation (R41). -/
def launchedOnce (s t : State) (k : Nat) : Prop := t.cue k = { gen := (s.cue k).gen + 1, launched := true }

/-- A cue of the slot that is due, carries the action, repeats no more and may act on its target (R40, R42, R44). -/
def lastLaunch (s : State) (k action : Nat) : Prop :=
  s.alive = true ∧ s.cueDue k = true ∧ (s.cue k).action = action ∧ (s.cue k).onGrid = false ∧ (s.cue k).notify = false ∧
    s.cueDenied (s.cue k) (s.cue k).world = none ∧ s.wrd.boot = none

/-- R40 to R42: a cue that is due launches: its slot becomes free, and its action reaches the target. (RECOAT_SWAP and
FLOW_SOURCE_SWITCH, FLOW_ENABLE, FLOW_DISABLE have statements of their own.)
R40 (exactly once): after a cue that does not repeat has launched, its slot is free and a second launch of the slot
changes nothing.
R44: a non-secure cue whose target has become secure does not act: it counts as executed and a refusal is recorded. -/
def Obligations.CuesLaunch : Prop :=
  (∀ (s : State) (k : CueKey),
    (lastLaunch s k 0x0101 → Yields (.cueTlMark k) s fun t => launchedOnce s t k ∧ Same { s with tl.cues := t.tl.cues } t ∧
      t.wrd = (s.postEvent s.pwr.owner 0x0408 (Config.eventDetail 0x0408 [(s.cue k).arg]) (s.cue k).launch).wrd) ∧
    (lastLaunch s k 0x0601 → Yields (.cueHostEvent k) s fun t => launchedOnce s t k ∧ Same { s with tl.cues := t.tl.cues } t ∧
      t.wrd = (s.postEvent (s.cue k).target 0x0409 (Config.eventDetail 0x0409 [(s.cue k).arg]) (s.cue k).launch).wrd) ∧
    (lastLaunch s k 0x0401 → s.pwr.mode ≠ .hold → let q := 8 * (s.cue k).target + (s.cue k).arg % 8
      s.qEnabled q = true → s.qCol q ≠ .off → Yields (.cueQueueBankSwap k) s fun t => launchedOnce s t k ∧
        t.queue q = (s.queue q).swap ∧ ∀ p ≠ q, t.queue p = s.queue p) ∧
    (lastLaunch s k 0x0302 → s.pwr.mode ≠ .hold → let g := (s.mea (s.cue k).target).gate
      (g.events.length < 16 → Yields (.cueFabricEvent k) s fun t => launchedOnce s t k ∧
        (t.mea (s.cue k).target).gate.events =
          g.events ++ [(BitVec.ofNat 16 (s.cue k).arg, (s.cue k).host, BitVec.ofNat 32 (s.cueHandle k))]) ∧
      (16 ≤ g.events.length → Yields (.cueFabricEvent k) s fun t => launchedOnce s t k ∧ t.fab = s.fab ∧
        t.wrd = (s.postEvent (s.cue k).host 0x0407 (BitVec.ofNat 96 (pack [(7, 32), (s.cueHandle k, 0)])) s.tl.now).wrd)) ∧
    (lastLaunch s k 0x0501 → s.pwr.mode ≠ .hold → Yields (.cueTaskRelease k) s fun t => launchedOnce s t k ∧
      t = (s.freeCue k true).release k (s.cue k).host (s.cue k).world (s.cue k).target ((s.cue k).arg % 4)
        (BitVec.ofNat 64 (fld (s.cue k).arg 16 16))) ∧
    (∀ m : MeadowId, s.netRuns m (s.mea m).live.pers.gateClk = true → Yields (.fabricEventDelivery m) s fun t =>
      (t.mea m).gate.events = (s.mea m).gate.events.drop 1 ∧
      (t.mea m).gate.cue = ((s.mea m).gate.events.head?).map (·.1))) ∧
  (∀ (s t : State) (k : CueKey), (s.cue k).onGrid = false → s.cueDue k = true → (s.cue k).action = 0x0101 → s.alive = true →
    exec (.cueTlMark k) s = .next t → (t.cue k).armed = false ∧ exec (.cueTlMark k) t = .next t) ∧
  (∀ (s : State) (k : CueKey) (r i : Nat), s.alive = true → s.pwr.mode ≠ .hold → s.cueDue k = true → (s.cue k).onGrid = false →
    (s.cue k).notify = false → s.cueDenied (s.cue k) (s.cue k).world = some (r, i) →
    ((s.cue k).action = 0x0401 → Yields (.cueQueueBankSwap k) s fun t => launchedOnce s t k ∧ t.que = s.que ∧
      t = (s.freeCue k true).deny 8 k r i) ∧
    ((s.cue k).action = 0x0302 → Yields (.cueFabricEvent k) s fun t => launchedOnce s t k ∧ t.fab = s.fab ∧
      t = (s.freeCue k true).deny 8 k r i))

/-! ## Hardware queues (06) -/

/-- R108, R111, R125, R128, R353: the queue commands. -/
def Obligations.QueueCommandsServed : Prop :=
  ∀ (s : State) (h : HostId) (c : Cmd),
    (∀ q n, q = c.f 0 0 17 → n = c.f 1 0 17 → s.qEnabled q = true → c.world = true ∨ s.qWorld q = false →
      (if (s.qCfg q).cons = 1 then
        (if c.f 1 63 1 = 1 then (s.ent n).slotmask.getLsbD (c.f 1 17 2) = true ∧ reaches (s.qWorld q) (s.ent n).world = true
         else reaches (s.qWorld q) (s.qWorld n) = true)
       else c.arg 1 = 0) →
      (∀ p ∈ setupSlots c, if p.1 = 0 then p.2 = 0 else srcOk p.1 = true) → (s.queue q).count = 0 →
      ((s.queue q).slot 0).grant = 16 * (s.qCfg q).fcred.toNat →
      (∀ i < 4, ((s.queue q).slot i).held = ((s.queue q).slot i).grant) →
      16 * (s.qCfg q).fcred.toNat + c.f 2 0 13 + c.f 3 0 13 + c.f 4 0 13 ≤ (s.qCfg q).words →
      (∃ i, i < 3 ∧ ((s.queue q).slot (i + 1)).grant ≠ c.f (2 + i) 0 13) →
      Serves s h 0x060A (.queueSetup h) c stOk [] fun t =>
        (∀ i < 3, ((t.queue q).slot (i + 1)).src = BitVec.ofNat 32 (c.f (2 + i) 32 32) ∧
          ((t.queue q).slot (i + 1)).grant = c.f (2 + i) 0 13 ∧ ((t.queue q).slot (i + 1)).held = c.f (2 + i) 0 13) ∧
        (t.queue q).fwd = (if (s.qCfg q).cons = 1 then some (BitVec.ofNat 64 (c.arg 1)) else none) ∧
        ∀ p ≠ q, t.queue p = s.queue p) ∧
    (∀ q, q = c.f 0 0 17 → c.world = true ∨ s.qWorld q = false → (s.mb h).running = some c → c.code = 0x060B →
      Yields (.queueQuery h) s fun t => (t.mb h).running = none ∧ Same s t ∧ ∃ l, Gave t h c stOk 0
        ([s.qStatus q, bit (decide ((s.queue q).count = 0)) +
          2 * bit ((List.range 4).all fun i => decide (((s.queue q).slot i).held = ((s.queue q).slot i).grant))] ++ l)) ∧
    (∀ q n, q = c.f 0 32 17 → n = c.f 0 0 10 → c.f 1 8 1 = 0 → c.world = true ∨ s.qWorld q = false →
      (c.f 1 0 2 = 0 ∨ ((s.queue q).slot (c.f 1 0 2)).src = srcCode 5 n) →
      (c.f 1 4 1 = 0 ∨ (s.qEnabled q = true ∧ (s.qCfg q).cons = 2)) →
      (∀ b, s.que.win.get none n = some b → b.1 = h) →
      Serves s h 0x060C (.queueWindowMap h) c stOk [] fun t =>
        t.que.win.get none n = some (h.val, q, c.f 1 0 2, decide (c.f 1 4 1 = 1)) ∧ t.que.q = s.que.q) ∧
    (∀ q n, q = c.f 0 32 17 → n = c.f 0 0 10 → c.f 1 8 1 = 1 → c.world = true ∨ s.qWorld q = false →
      (∀ b, s.que.win.get none n = some b → b.1 = h) →
      Serves s h 0x060C (.queueWindowUnmap h) c stOk [] fun t => t.que.win.get none n = none ∧ t.que.q = s.que.q)

/-- R114, R113, R124, R126 to R128: automatic swaps, credit messages, and pushes and pops of a bound window. -/
def Obligations.QueueWindowsAndSwaps : Prop :=
  ∀ (s : State) (q : QueueId),
    (s.running = true → s.qEnabled q = true → (s.qCfg q).auto = true → s.qCol q = .on → (s.queue q).chain = [] →
      (s.queue q).drain = [] → (s.queue q).fill ≠ [] → Yields (.queueAutoSwap q) s fun t => t.queue q = (s.queue q).swap) ∧
    (∀ sl : Fin 4, sl.val ≠ 0 → 0 < ((s.queue q).slot sl).due → Yields (.creditReturnMessage q sl) s fun t =>
      t.queue q = (s.queue q).setSlot sl { (s.queue q).slot sl with due := 0 } ∧
      t.out = s.out ++ [.credit ((s.queue q).slot sl).src q ((s.queue q).slot sl).due]) ∧
    (∀ (h : HostId) (n : WindowId) (sl : Nat) (cons : Bool), s.alive = true → s.pwr.mode ≠ .hold →
      s.window h n = some (q.val, sl, cons) → reaches (s.hostWorld h) (s.qWorld q) = true → s.qCol q = .on →
      (∀ prio data, (sl = 1 ∨ sl = 2 ∨ sl = 3) → ((s.queue q).slot sl).src = srcCode 5 n → ((s.queue q).slot sl).held ≠ 0 →
        (s.mea (q.val / 512)).gate.isOpen = true →
        Yields (.queueWindowPush h n prio data) s fun t => t.queue q = (s.queue q).push sl prio (s.qData q data)) ∧
      (∀ w, cons = true → (s.qCfg q).cons = 2 → s.qEnabled q = true → (s.queue q).head = some w → w.err = false →
        Yields (.queueWindowPop h n ((s.queue q).seq.setWidth 64)) s fun t => t.queue q = (s.queue q).pop) ∧
      (∀ v : BitVec 64, v.setWidth 16 ≠ (s.queue q).seq → Yields (.queueWindowPop h n v) s fun t =>
        t.queue q = { s.queue q with popIgn := satInc (s.queue q).popIgn }))

/-- R109, R110, R116 to R119, R121, R124, R126, R127: pushes, pops and credits of the fabric ports and the windows.
R110: a delivery returns the credit of the slot that pushed the word, once: credits held never exceed the grant, and a
pop leaves the number of words in the queue one less. -/
def Obligations.QueueTransfers : Prop :=
  (∀ (s : State) (k : SkimId) (i : Fin 8), let q := 8 * k.val + i.val
    (∀ prio ins, let u := s.takeIns ins
      u.qFabricWorld k = true → u.qProducer k = true → (u.mea (k.val / 64)).col = .on →
      (((s.queue q).slot 0).held ≠ 0 → Yields (.fabricQueuePush k i prio ins) s fun t =>
        t.queue q = (s.queue q).push 0 prio (u.qData q (u.skimDin k 0)) ∧
        (t.qPort k).dropIn = (s.qPort k).dropIn &&& 6 ∧ ∀ p ≠ q, t.queue p = s.queue p) ∧
      (((s.queue q).slot 0).held = 0 → Yields (.fabricQueuePush k i prio ins) s fun t => t.queue q = (s.queue q).noCredit ∧
        (t.qPort k).dropIn = (s.qPort k).dropIn ||| 1)) ∧
    (s.qFabricWorld k = true →
    (∀ w, s.qConsumer k = true → (s.qCfg q).cons = 0 → s.qEnabled q = true → s.qCol q = .on → (s.qPort k).rsel = i.val →
      (s.qPort k).valid.getLsbD i = true →
      (s.queue q).head = some w → w.err = false →
      Yields (.fabricQueuePop k i true) s fun t => t.queue q = (s.queue q).pop ∧ (t.qPort k).dout = ((s.queue q).pop).head ∧
        (t.qPort k).valid.getLsbD i = ((s.queue q).pop).head.isSome) ∧
    (s.qProducer k = true → ((s.queue q).slot 0).due ≠ 0 → ((List.range 8).map fun j => ((s.qPort k).lastServed + 1 + j) % 8).find?
        (fun j => decide (0 < ((s.queue (8 * k.val + j)).slot 0).due)) = some i.val →
      Yields (.fabricCreditReport k) s fun t => ((t.queue q).slot 0).due = 0 ∧
        (t.qPort k).credit = some (i.val, ((s.queue q).slot 0).due) ∧ (t.qPort k).lastServed = i.val ∧
        (t.qPort k).drop = (s.qPort k).dropIn.getLsbD 2))) ∧
  (∀ (x : Queue) (w : QWord), x.head = some w → (∀ i, (x.slot i).held ≤ (x.slot i).grant) →
    (x.pop).count + 1 = x.count ∧ (∀ i, ((x.pop).slot i).held ≤ ((x.pop).slot i).grant) ∧
    ((x.slot w.slot).held < (x.slot w.slot).grant → ((x.pop).slot w.slot).held = (x.slot w.slot).held + 1))

/-! ## Fabric, trowel slices, on-chip memories (03 to 05, 07, 23) -/

/-- R76, R82 to R86, R141: what the fabric's nets carry: zero from a multiplexer at code 0 or at a code above its inputs,
from a crossing at the outer edge of a heath and into a masked meadow; from a crossing of a neighbour its register, or
while the neighbour is masked the value of its mask; on a reset spine zero, the fabric reset or a flip-flop.
R54, R65, R74, R79: an edge of a global clock takes the upsets and what has come from outside the fabric and loads the
registers that a running network of its heath clocks from it, and what that forces takes effect in every heath at
once; an enabled wire register loads at the rising edges of its regional clock, from its wire or from the register
before it; a meadow in which no running network carries the clock keeps its registers, and so does every meadow of
another heath.
R51, R52, R54, R59: what an active edge does to flip-flop A of a cell of the tuft that it clocks: the reset value when
set/reset acts, no change when its clock enable is off, else the input that its select field names: the table's bit
FO, the sum, X or the word-in bit. The cells of a tuft that the edge does not clock keep their flip-flops; an
asynchronous set/reset forces the reset value at once.
R477: a pulse at an edge of the I/O clock moves both delay lines of a pin by one tap, saturating at 0 and 511; both
pulses at once do nothing, nor does one while no network clocks the pin's cell. -/
def Obligations.FabricEdgesLoad : Prop :=
  (∀ (s : State) (m : MeadowId),
    (∀ x : Mux, let c := ((s.mea m).live.pers.sel.get {} x.key).code
      c = 0 ∨ x.inputs < c.toNat → s.fabNet (.mux m x) = 0) ∧
    (∀ c : Crossing, neighbour m c.dir = none ∨ (s.mea m).masked = true → s.fabNet (.sig m (.cross c)) = 0) ∧
    (∀ (c : Crossing) (n : Nat), neighbour m c.dir = some n → (s.mea m).masked = false → c.n < edgeCount c.dir c.word →
      let b : Crossing := { c with dir := c.dir.back }
      ((s.mea n).masked = true → s.fabNet (.sig m (.cross c)) = (s.mea n).xout.get 0 b.key) ∧
      ((s.mea n).masked = false → ((s.mea n).live.pers.crossings.get {} b.key).en = true →
        s.fabNet (.sig m (.cross c)) = (s.mea n).xregs.get 0 b.key)) ∧
    (∀ n, let v := s.fabNet (.sig m (.spine n))
      ((s.mea m).live.pers.rspSel.get 0 n = 0 → v = 0) ∧ ((s.mea m).live.pers.rspSel.get 0 n = 1 → v = netBit (s.mea m).frst) ∧
      ((s.mea m).live.pers.rspSel.get 0 n = 2 → v = netBit ((s.mea m).ffs.get (false, false) n).1))) ∧
  (∀ (s : State) (g : GclkId) (rise : Bool) (ins : List FabIn) (ups : List FrameUpset), let h := g.val / 16
    let u := (each ups (fun u s => s.frameUpset u) s).takeIns ins
    let v := u.clockEdge g rise
    Yields (.fabricClockEdge g rise ins ups) s (fun t => t = v.settleAll ∧ (∀ m, (t.mea m).wires = (v.mea m).wires) ∧
      (∀ m, (t.mea m).xregs = (v.mea m).xregs)) ∧
    (∀ m, m / 48 ≠ h → v.mea m = u.mea m) ∧
    (∀ m, u.netsOf m g = [] → v.mea m = u.mea m) ∧
    (∀ (m : Nat) (w : Wire) (i : Nat), m / 48 = h → i < 2 → w.isReal = true → let r := (u.mea m).live.pers.regAt w i
      r.en = true → BitVec.ofNat 4 (r.clk.toNat + 1) ∈ u.netsOf m g → rise = true →
      (v.mea m).wires.get 0 (w.point i) = if i = 1 ∧ ((u.mea m).live.pers.regAt w 0).en = true
        then (u.mea m).wires.get 0 (w.point 0) else u.fabNet (.mux m (.wire w))) ∧
    (rise = false → ∀ m, (v.mea m).wires = (u.mea m).wires ∧ (v.mea m).xregs = (u.mea m).xregs)) ∧
  (∀ (u : State) (m k : Nat) (g : GclkId) (rise : Bool), m / 48 = g.val / 16 →
    let x := u.mea m
    let cfg := x.live.pers.cells.get {} k
    let tuft := x.live.pers.tufts.get {} (k / 8)
    let sr := u.tuftSr m (k / 8)
    let ce := u.tuftCe m (k / 8)
    let o := u.cellOuts u.fabNet m k
    let l := u.cellL u.fabNet m k
    let v := u.clockEdge g rise
    let n := ((v.mea m).ffs.get (false, false) k).1
    (tuft.clkSel ∈ u.netsOf m g → tuft.clkInv ≠ rise →
      (cfg.srUse.1 = true → sr = true → n = cfg.resval.1) ∧
      (cfg.srUse.1 = false ∨ sr = false → cfg.ceUse.1 = true → ce = false → n = (x.ffs.get (false, false) k).1) ∧
      (cfg.srUse.1 = false ∨ sr = false → cfg.ceUse.1 = false ∨ ce = true →
        (cfg.dselA = 0 → n = cfg.tbl.getLsbD (if cfg.fracture = true then 32 + l.toNat % 32 else l.toNat)) ∧
        (cfg.dselA = 1 → n = o.s) ∧ (cfg.dselA = 2 → n = cellX u.fabNet m k) ∧ (cfg.dselA = 3 → n = cellWord u.fabNet m k))) ∧
    ((∀ e ∈ x.live.pers.tufts.ents, e.1 = k / 8 → ¬ (e.2.clkSel ∈ u.netsOf m g ∧ e.2.clkInv ≠ rise)) →
      (v.mea m).ffs.get (false, false) k = x.ffs.get (false, false) k) ∧
    (tuft.srAsync = true → cfg.srUse.1 = true → sr = true →
      (((u.settleOnce (m / 48)).mea m).ffs.get (false, false) k).1 = cfg.resval.1)) ∧
  (∀ (s : State) (b : BankId) (p : PinId) (inc dec : Bool), let k := 48 * b.val + p.val
    let r := (s.pin k).reg
    exec (.ioDelayStep b p inc inc) s = .next s ∧
    ((s.pinCfg k).clk = 0 ∨ s.netRuns (pinMeadow k) (s.pinCfg k).clk = false → exec (.ioDelayStep b p inc dec) s = .next s) ∧
    ((s.pinCfg k).clk ≠ 0 → s.netRuns (pinMeadow k) (s.pinCfg k).clk = true → (s.mea (pinMeadow k)).masked = false →
      Yields (.ioDelayStep b p true false) s (fun t => let q := (t.pin k).reg
        q.itap.toNat = min 511 (r.itap.toNat + 1) ∧ q.otap.toNat = min 511 (r.otap.toNat + 1) ∧ q.oe = r.oe) ∧
      Yields (.ioDelayStep b p false true) s (fun t => let q := (t.pin k).reg
        q.itap.toNat = r.itap.toNat - 1 ∧ q.otap.toNat = r.otap.toNat - 1 ∧ q.oe = r.oe)))

/-- R72, R135, R137 to R141, R144: an enabled edge of a main-mode slice without stages adds the complex product of what
its multiplexers bring to the accumulators, which wrap or clamp to 48 bits; with tw_en low no register changes; an
input whose select field is zero is zero.
R140, R142: a clamped accumulator is the exact value limited to its range; a rounded word is the exact value plus half
a unit, shifted. -/
def Obligations.TrowelSlicesRun : Prop :=
  (∀ (s : State) (m : MeadowId) (sw : Fin 64) (ins : List FabIn),
    let u := s.takeIns ins
    let c := (u.mea m).live.pers.trowels.get {} sw.val
    let old := (u.mea m).trowels.get {} sw.val
    let i := u.trowelOps m sw
    ((u.mea m).live.pers.selects (.trowelBit sw 7) = false → u.trowelEn m sw = false) ∧
    ((u.mea m).live.pers.selects (.trowelWord sw 0) = false → i.are = 0) ∧
    (u.trowelEn m sw = false → exec (.trowelSliceUpdate m sw ins) s = .next u) ∧
    (u.trowelEn m sw = true → u.netRuns m c.clk = true → c.fallback = false → c.inStage = false → c.mulStage = false → i.op = 0 →
      i.ksel = 0 → i.pre = 0 → i.conj = false →
      Yields (.trowelSliceUpdate m sw ins) s fun t =>
        let new := (t.mea m).trowels.get {} sw.val
        let re := old.accRe.toInt + (i.are.toInt * i.bre.toInt - i.aim.toInt * i.bim.toInt)
        let im := old.accIm.toInt + (i.aim.toInt * i.bre.toInt + i.are.toInt * i.bim.toInt)
        new.accRe = BitVec.ofInt 48 (if c.accSat then clampS 48 re else re) ∧
        new.accIm = BitVec.ofInt 48 (if c.accSat then clampS 48 im else im) ∧
        new.aovf = (outS 48 re || outS 48 im) ∧ ∀ j ≠ sw.val, (t.mea m).trowels.get {} j = (u.mea m).trowels.get {} j)) ∧
  ((∀ (n : Nat) (v : Int), 0 < n → (-(2 ^ (n - 1)) ≤ clampS n v ∧ clampS n v ≤ 2 ^ (n - 1) - 1) ∧
    (outS n v = false → clampS n v = v) ∧ (outS n v = true → clampS n v = if v < 0 then -(2 ^ (n - 1)) else 2 ^ (n - 1) - 1)) ∧
  (∀ (v : Int) (k : Nat), 2 ^ (k + 1) * roundShift v (k + 1) ≤ v + 2 ^ k ∧ v + 2 ^ k < 2 ^ (k + 1) * (roundShift v (k + 1) + 1)))

/-- R72, R88 to R90, R99: a port of a skim block in memory mode writes its enabled lane, with what its word-in multiplexer
brings; outside ON a skim write is dropped.
R93, R95, R96, R102: a fabric port of a screed block whose world and column let it writes the lane it addresses; of
two operations in one array cycle that of port A is made first.
R100, R99: MEM_POWER_SET waits for the column; the change answers it, and a column turned OFF loses its contents. -/
def Obligations.MemoriesRun : Prop :=
  (∀ (s : State) (k : SkimId) (p : PortIn), let u := s.takeIns p.ins
    u.netRuns (k.val / 64) (u.skimCfg k).a.clk = true → (u.skimCfg k).queueMode = false → p.en = true → p.we.getLsbD 0 = true →
    ((u.mea (k.val / 64)).col = .on → (u.skimCfg k).a.width = 0 →
      Yields (.skimPortAccess k (some p) none) s fun t =>
        t.skimLane k (p.addr.toNat % 4096 / 4) (p.addr.toNat % 4) =
          (u.fabNet (.mux (k.val / 64) (.skimWord (2 * (k.val % 64)) 0)), false) ∧
        ∀ a, (a < skimAddr k (p.addr.toNat % 4096 / 4) (p.addr.toNat % 4) ∨
            skimAddr k (p.addr.toNat % 4096 / 4) (p.addr.toNat % 4) + 1 < a) → t.mem.skim.read a = s.mem.skim.read a) ∧
    ((u.mea (k.val / 64)).col ≠ .on → Yields (.skimPortAccess k (some p) none) s fun t => t.mem.skim = s.mem.skim)) ∧
  (∀ (s : State) (k : ScreedId) (p : PortIn), let u := s.takeIns p.ins
    u.netRuns (k.val / 6) (u.screedCfg k).a.clk = true → (u.screedCfg k).a.width = 0 →
    p.en = true → p.we.getLsbD 0 = true → fld p.addr.toNat 15 2 = 0 →
    (∀ b, let v := s.takeIns (p.ins ++ b.ins)
      Yields (.screedPortAccess k (some p) (some b)) s fun t =>
        t = ((v.screedOp k false (v.screedDin k 0) p).screedOp k true (v.screedDin k 1) b).settleAll) ∧
    (u.screedReach k = true → Yields (.screedPortAccess k (some p) none) s fun t =>
      t.screedLane k (2 * fld p.addr.toNat 0 15) = u.fabNet (.mux (k.val / 6) (.screedWord (2 * (k.val % 6)) 0)) ∧ t.screedMark k (2 * fld p.addr.toNat 0 15) = .ok ∧
      ∀ a, (a < screedAddr k (2 * fld p.addr.toNat 0 15) ∨ screedAddr k (2 * fld p.addr.toNat 0 15) + 1 < a) →
        t.mem.screed.read a = s.mem.screed.read a) ∧
    (u.screedReach k = false → Yields (.screedPortAccess k (some p) none) s fun t => t.mem = { s.mem with screedPort := t.mem.screedPort })) ∧
  (∀ (s : State) (h : HostId) (c : Cmd), let m := c.f 0 0 8
    let goal : ColState := match c.f 0 8 2 with | 0 => .on | 1 => .retention | _ => .off
    ((s.mb h).running = some c → c.code = 0x0902 → (s.mea m).colReq = none → c.world = true ∨ (s.mea m).world = false →
      (s.mea m).col ≠ goal → (goal ≠ .on → s.columnHeld m = false) → (goal = .off → s.columnQueues m = false) →
      Yields (.memPowerSet h) s fun t => t = s.setMea m { s.mea m with colReq := some (goal, h.val, c.seq) }) ∧
    (c.world = true ∨ (s.mea m).world = false → (s.mea m).colReq = none → (s.mea m).col = goal →
      Serves s h 0x0902 (.memPowerSet h) c stIgnored [] (Same s)) ∧
    (∀ (k : MeadowId) (g : ColState), k.val = m → s.alive = true → s.pwr.mode ≠ .hold → (s.mb h).running = some c →
      (s.mea m).colReq = some (g, h.val, c.seq) →
      (g = .off → Yields (.memColumnStateChange k) s fun t => (t.mea m).col = .off ∧ (t.mea m).colReq = none ∧
        Gave t h c stOk 0 [] ∧ (∀ a, 8192 * 64 * m ≤ a → a < 8192 * 64 * (m + 1) → t.mem.skim.read a = s.mem.skim.dflt) ∧
        ∀ q, q / 512 = m → t.queue q = {}) ∧
      (g = .retention → Yields (.memColumnStateChange k) s fun t => (t.mea m).col = .retention ∧ t.mem = s.mem ∧
        t.que = s.que ∧ Gave t h c stOk 0 []) ∧
      (g = .on → Yields (.memColumnOnComplete k) s fun t => (t.mea m).col = .on ∧ Gave t h c stOk 0 [] ∧
        ((s.mea m).col ≠ .off → t.mem = s.mem) ∧
        ((s.mea m).col = .off → ∀ a, 8192 * 64 * m ≤ a → a < 8192 * 64 * (m + 1) → t.mem.skim.read a = s.mem.skim.dflt))))

/-! ## Scrim engine (12) -/

/-- R255 to R265: the owner's commands, and the happenings of the write counters, the rolls and the walk. -/
def Obligations.ScrimCommandsServed : Prop :=
  ∀ (s : State) (h : HostId) (c : Cmd), let r := c.f 0 0 8
    ((s.region r).world ≠ decide (c.f 0 8 1 = 1) ∨ (s.region r).goal ≠ decide (c.f 0 9 1 = 1) →
      Serves s h 0x0705 (.scrimRegionSet h) c stOk [] fun t => (t.region r).world = decide (c.f 0 8 1 = 1) ∧
        (t.region r).key = (s.region r).key ∧ t.hbm = s.hbm ∧
        ((s.region r).roll = none → (s.region r).goal ≠ decide (c.f 0 9 1 = 1) →
          ∃ q, (t.region r).roll = some q ∧ q.integ = decide (c.f 0 9 1 = 1) ∧ q.walking = false)) ∧
    ((s.region r).world = decide (c.f 0 8 1 = 1) → (s.region r).goal = decide (c.f 0 9 1 = 1) →
      Serves s h 0x0705 (.scrimRegionSet h) c stIgnored [] (Same s)) ∧
    Serves s h 0x0706 (.scrimKeyRoll h) c stOk [] (fun t => (t.region r).roll.isSome = true ∧
      (∀ q, (s.region r).roll = some q → (t.region r).roll = some q) ∧ (t.region r).goal = (s.region r).goal ∧
      t.hbm = s.hbm) ∧
    Serves s h 0x0707 (.scrimShareSet h) c stOk [] (fun t => (t.slice (c.f 0 0 1)).share = BitVec.ofNat 8 (c.f 0 8 8) ∧
      t.hbm = s.hbm)

/-- Offsets, in region `r` on pseudo-channel `p` of its stack, of the runs of 8 lines that a roll meets (R261). -/
def rollStarts (s : State) (r : RegionId) (p : Fin 16) : List Nat :=
  let first := regionLines * (r.val % 128)
  ((s.heldGrans (16 * (r.val / 128) + p.val)).flatMap fun g => (List.range 8).map fun i => 64 * g + 8 * i).filterMap
    fun la => if first ≤ la ∧ la < first + regionLines then some (la - first) else none

/-- Places of the allocated granules of a lost region, as the walk passes them (R263). -/
def walkKeys (s : State) (r : RegionId) : List Nat :=
  let first := regionLines * (r.val % 128)
  (List.range 16).flatMap fun p => (s.heldGrans (16 * (r.val / 128) + p)).filterMap fun g =>
    if first ≤ 64 * g ∧ 64 * g < first + regionLines then some (lineKey (16 * (r.val / 128) + p) (64 * g)) else none

/-- R256 to R264: folding a leaf counter, starting and ending a roll, the faults of the key table and the counters. -/
def Obligations.ScrimHappenings : Prop :=
  ∀ (s : State) (r : RegionId),
    (∀ p : Fin 16, let x := s.region r
      let root := (x.root + x.leaf.get 0 p) % 2 ^ 48
      (s.pch (16 * (r.val / 128) + p.val)).st ≠ .failed → root < 2 ^ 40 → Yields (.scrimCounterFold r p) s fun t => t.region r = { x with root := root, leaf := x.leaf.set 0 p 0 } ∧
        t.hbm = s.hbm) ∧
    (∀ q, (s.region r).roll = some q → q.walking = false →
      ((s.slice (r.val / 128)).waiting.find? fun k => (s.region k).walkingRoll.isNone && !(s.region k).lost) = some r.val →
      s.rollsActive (r.val / 128) < 4 → s.pwr.mode ≠ .hold →
      Yields (.scrimRollStart r) s fun t => (t.region r).epoch = (s.region r).epoch + 1 ∧
        (t.region r).key = (s.region r).key + 1 ∧ (t.region r).root = 0 ∧
        (t.region r).roll = some { q with walking := true, bound := {} }) ∧
    (∀ (p : Fin 16) q, (s.region r).walkingRoll = some q → s.pwr.mode ≠ .hold →
      (s.pch (16 * (r.val / 128) + p.val)).pausesRoll = false → s.rollPassed q (r.val / 128) p = false →
      let next := leastFrom (q.bound.get 0 p) (rollStarts s r p)
      (next = none → Yields (.scrimRollStep r p) s fun t =>
        (t.region r).roll = some { q with bound := q.bound.set 0 p regionLines }) ∧
      (∀ o, next = some o → Yields (.scrimRollStep r p) s fun t =>
        (t.region r).roll = some { q with bound := q.bound.set 0 p (o + 8) })) ∧
    (∀ q, (s.region r).walkingRoll = some q → (∀ p : Fin 16, s.rollPassed q (r.val / 128) p = true) →
      Yields (.scrimRollDone r) s fun t => t.region r =
        { s.region r with integ := q.integ, roll := (s.region r).roll2, roll2 := none }) ∧
    (∀ leaf, Yields (.scrimCounterError r leaf) s fun t => (t.region r).roll.isSome = true) ∧
    Yields (.scrimKeyTableError r false) s (Same s) ∧
    Yields (.scrimKeyTableError r true) s (fun t => (t.region r).lost = true ∧ (t.region r).key = (s.region r).key + 1 ∧
      (t.region r).roll = none) ∧
    ((s.region r).lost = true → s.pwr.mode ≠ .hold →
      let behind := (walkKeys s r).filter fun k => (List.range 64).any fun i => s.lineMark (k / 2 ^ 25) (k % 2 ^ 25 + i) ≠ .poison
      let next := (leastFrom (s.region r).walk (walkKeys s r)).orElse fun _ => behind.min?
      (next = none → Yields (.scrimPoisonWalkStep r) s fun t =>
        (t.region r).lost = false ∧ t.hbm = s.hbm) ∧
      (∀ k, next = some k → Yields (.scrimPoisonWalkStep r) s fun t =>
        (t.region r).walk = k + 64 ∧ ∀ i < 64, t.lineMark (k / 2 ^ 25) (64 * (k % 2 ^ 25 / 64) + i) = .poison)) ∧
    (∀ hd b l g, s.buf hd = some b → b.fill = some l → s.pwr.mode ≠ .hold → b.place.exists_ = true →
      (List.range b.size).find? (fun g => decide (g ∉ l)) = some g →
      Yields (.scrimFillGranule hd) s fun t => ∃ x, t.buf hd = some x ∧ x.place = b.place ∧
        x.fill = if b.size ≤ l.length + 1 then none else some (g :: l))

/-- R252, R254: a whole line written through a region is read back, until something else writes it: the line's data, with a
good tag, whatever it held before. -/
def Obligations.LineWriteThenRead : Prop :=
  ∀ (s : State) (a : Asker) (port pc la : Nat) (data : List Byte), data.length = 64 → (s.pch pc).serves = true →
    (s.region (regionOf pc la)).lost = false → reaches a.world (s.region (regionOf pc la)).world = true →
    let g := s.writeLine a port pc la data (List.replicate 64 true)
    g.st = hsOk ∧ (g.s.look pc la).1 = .data ∧ g.s.lineData pc la = data ∧
      ∀ l, l ≠ lineKey pc la → g.s.hbm.mem.readN (64 * l) 64 = s.hbm.mem.readN (64 * l) 64

/-! ## HBM controllers (11) -/

/-- R230 to R240: the owner's commands of a pseudo-channel.
R235 to R247: the happenings of the controllers. -/
def Obligations.HbmUnitsRun : Prop :=
  (∀ (s : State) (h : HostId) (c : Cmd), let pc := c.f 0 0 5
    ((∀ b < 4, maskOk b (c.f (b + 1) 0 25) = true) → s.chanLive pc = false →
      Serves s h 0x0701 (.hbmMapSet h) c stOk [] fun t =>
        (t.pch pc).map = some (BitVec.ofNat 25 (c.f 1 0 25), BitVec.ofNat 25 (c.f 2 0 25), BitVec.ofNat 25 (c.f 3 0 25),
          BitVec.ofNat 25 (c.f 4 0 25)) ∧ (t.pch pc).st = (s.pch pc).st ∧ ∀ p ≠ pc, t.pch p = s.pch p) ∧
    ((∀ b < 4, maskOk b (c.f (b + 1) 0 25) = true) → s.chanLive pc = true →
      Serves s h 0x0701 (.hbmMapSet h) c stBusy [] (Same s)) ∧
    (¬ (1 ≤ c.f 0 8 3 ∧ c.f 0 8 3 ≤ 3) → Serves s h 0x0702 (.hbmQosSet h) c stOk [] fun t =>
      (t.pch pc).qos.get none (c.f 0 8 3) = some (BitVec.ofNat 16 (c.f 1 0 16)) ∧ ∀ p ≠ pc, t.pch p = s.pch p) ∧
    Serves s h 0x0703 (.hbmSrSet h) c stOk [] (fun t => t.pch pc = { s.pch pc with srIdle := c.f 1 0 20 } ∧
      ∀ p ≠ pc, t.pch p = s.pch p) ∧
    (s.chanLive pc = true → c.f 0 8 1 = 0 → Serves s h 0x0704 (.hbmRetrain h) c stBusy [] (Same s)) ∧
    ((s.mb h).running = some c → c.code = 0x0704 → s.chanLive pc = false → (s.pch pc).retrains = [] →
      Yields (.hbmRetrain h) s fun t => t = s.setPch pc { s.pch pc with retrains := [(c.bg h, false)] }) ∧
    (s.chanLive pc = false → (s.pch pc).retrains ≠ [] → Serves s h 0x0704 (.hbmRetrain h) c stQueued [] fun t =>
      (t.pch pc).retrains = (s.pch pc).retrains ++ [(c.bg h, true)] ∧ t.wrd.bg = s.wrd.bg ++ [c.bg h]) ∧
    (∀ u, s.chanLive pc = true → c.f 0 8 1 = 1 → s.planAll pc = some u →
      Serves s h 0x0704 (.hbmRetrain h) c stQueued [] fun t => t.pool.mig = u.pool.mig ∧
        (t.pch pc).retrains = (s.pch pc).retrains ++ [(c.bg h, true)]) ∧
    (s.chanLive pc = true → c.f 0 8 1 = 1 → s.planAll pc = none →
      Serves s h 0x0704 (.hbmRetrain h) c stQueued [] fun t => t.pool = s.pool ∧ t.hbm = s.hbm)) ∧
  (∀ (s : State) (p : ChanId), let x := s.pch p
    (x.retrains ≠ [] → x.st ≠ .retraining → x.st ≠ .selfRefresh → x.st ≠ .untrained → s.chanLive p = false → s.pwr.mode ≠ .hold →
      Yields (.hbmRetrainRun p) s fun t => t.pch p = { x with st := .retraining }) ∧
    (∀ ok spares b rest, x.retrains = (b, true) :: rest → x.st = .retraining →
      Yields (.hbmRetrainDone p ok spares) s fun t => t.pch p =
        { x with st := if ok then .active else .failed, spares := spares, retrains := rest } ∧ t.wrd.bg = s.wrd.bg.erase b) ∧
    (∀ ok spares c (h : HostId) rest, (s.mb h).running = some c → x.retrains = (c.bg h, false) :: rest → x.st = .retraining →
      Yields (.hbmRetrainDone p ok spares) s fun t => (t.pch p).st = (if ok then .active else .failed) ∧
        Gave t h c (if ok then stOk else stFailed) 0 []) ∧
    (x.st = .active → Yields (.hbmRefresh p) s fun t => let n := x.postponed.get 0 x.refBank
      let off := n < 4 ∧ s.bankUrgent p x.refBank = true
      (t.pch p).refBank = (x.refBank + 1) % 48 ∧ (t.pch p).coast = s.clk.coast ∧
      (off → (t.pch p).postponed.get 0 x.refBank = n + 1 ∧ (t.pch p).rows = x.rows) ∧
      (¬ off → (t.pch p).postponed.get 0 x.refBank = 0 ∧ (t.pch p).rows.get none x.refBank = none) ∧
      ∀ b ≠ x.refBank, (t.pch p).postponed.get 0 b = x.postponed.get 0 b ∧ (t.pch p).rows.get none b = x.rows.get none b) ∧
    exec (.hbmCalibration p) s = .next s ∧
    (∀ (st : StackId) (k : Int) (i : Nat), i < 16 → Yields (.hbmTemperatureRead st k) s fun t =>
      (t.pch (16 * st.val + i)).hot = (if 85 < k then true else if k < 80 then false else (s.pch (16 * st.val + i)).hot)) ∧
    (s.tl.now / secU ≠ s.hbm.ceSec → Yields .hbmCeInterval s fun t => (t.pch p).ceCount = 0 ∧ (t.pch p).corr = x.corr ∧
      t.hbm.ceSec = s.tl.now / secU) ∧
    (s.tl.now / secU = s.hbm.ceSec → exec .hbmCeInterval s = .next s) ∧
    -- the patrol reads the next line that a requester can reach; what upsets have done to it is corrected or poisons it
    (∀ la, x.st = .active → s.patrolNext p = some la → la < chanLines → (s.region (regionOf p la)).lost = false →
      s.lineMark p la = .ok → s.lineUpset p la = {} → s.tagSees p la = .data →
      let integ := (s.region (regionOf p la)).integAt p la
      (Yields (.hbmPatrolRead p []) s fun t => (t.pch p).patrol = (la + 1) % chanLines ∧ t.hbm.mem = s.hbm.mem ∧
        t.hbm.mark = s.hbm.mark ∧ (t.pch p).corr = x.corr ∧ (t.pch p).uncorr = x.uncorr) ∧
      (∀ u : LineUpset, u.addr = false → u.onDie = false → u.tag = false →
        (codeSays integ (upsetSymbols u) = .corrected → Yields (.hbmPatrolRead p [(la, u)]) s fun t =>
          t.lineMark p la = .ok ∧ (t.lineUpset p la).bits = 0 ∧ (t.pch p).corr = satInc x.corr ∧ t.hbm.mem = s.hbm.mem) ∧
        (codeSays integ (upsetSymbols u) = .uncorrectable → Yields (.hbmPatrolRead p [(la, u)]) s fun t =>
          t.lineMark p la = .poison ∧ (t.pch p).uncorr = satInc x.uncorr ∧ t.hbm.mem = s.hbm.mem))) ∧
    (x.st = .active → x.srIdle ≠ 0 → x.retrains = [] → s.rollTraffic p = false →
      Yields (.hbmSelfRefreshEntry p) s fun t => t.pch p = { x with st := .selfRefresh, rows := {} }) ∧
    (x.st = .selfRefresh → s.pwr.mode ≠ .hold → x.retrains ≠ [] ∨ s.rollTraffic p = true →
      Yields (.hbmSelfRefreshExit p) s fun t => t.pch p = { x with st := .active }) ∧
    (x.retrains = [] → s.rollTraffic p = false → exec (.hbmSelfRefreshExit p) s = .next s) ∧
    (x.st = .selfRefresh → s.pwr.mode = .hold → exec (.hbmSelfRefreshExit p) s = .next s))

/-! ## Pool manager (10) -/

/-- R215 to R217, R224: the commands of classes, buffers and apertures.
R239, R240: while a pseudo-channel is FAILED or retrains, the pool manager places nothing on it.
R224: APERTURE_MAP maps successive slices to successive 64 MiB of the buffer; APERTURE_UNMAP frees them;
APERTURE_QUERY changes nothing.
R220 to R222: a migration copies granule by granule, and at its end the buffer is the new placement and its commands
end. -/
def Obligations.PoolCommandsServed : Prop :=
  (∀ (s : State) (h : HostId) (c : Cmd),
    (∀ k, k = c.f 0 0 8 → (c.f 0 16 1 = 0 ∨ s.pwr.owner = h.val) → (∀ hd b, (hd, some b) ∈ s.pool.buf.ents → b.cls = k → b.isStore = true) →
      Serves s h 0x0601 (.poolClassDefine h) c stOk [] fun t => t.cls k = some
        { size := c.f 1 0 19, bw := c.f 0 8 3, lat := c.f 0 12 2, world := decide (c.f 0 16 1 = 1), pref := c.f 0 20 2 } ∧
        t.pool.buf = s.pool.buf) ∧
    (∀ k x hd u, k = c.f 0 0 8 → s.cls k = some x → reaches c.world x.world = true → s.alloc k x false = some (hd, u) →
      Serves s h 0x0602 (.bufferAlloc h) c stOk [hd] fun t => t.pool.buf = u.pool.buf ∧ ∃ b, t.buf hd = some b ∧
        b.cls = k ∧ b.size = x.size ∧ b.world = x.world ∧ b.isStore = false) ∧
    (∀ k x, k = c.f 0 0 8 → s.cls k = some x → reaches c.world x.world = true → s.alloc k x false = none →
      Serves s h 0x0602 (.bufferAlloc h) c stNoResource [] (Same s)) ∧
    (∀ hd b, hd = c.f 0 0 20 → s.buf hd = some b → b.isStore = false → reaches c.world b.world = true →
      (s.apertured hd = false → Serves s h 0x0603 (.bufferFree h) c stOk [] fun t => t.buf hd = none ∧
        ∀ k ≠ hd, t.buf k = s.buf k) ∧
      (s.apertured hd = true → Serves s h 0x0603 (.bufferFree h) c stBusy [] (Same s)) ∧
      ((s.mb h).running = some c → c.code = 0x0605 → Yields (.bufferQuery h) s fun t => Same s t ∧ (t.mb h).running = none ∧
        ∃ a d, Gave t h c stOk 0 [a, d, bit (s.migOf hd).isSome]) ∧
      (∀ u, s.migOf hd = none → s.planMove hd [] [c.bg h] = some u → Serves s h 0x0604 (.bufferMigrate h) c stQueued [] fun t =>
        t.pool.mig = u.pool.mig ∧ t.buf hd = some b) ∧
      (s.migOf hd = none → s.planMove hd [] [c.bg h] = none → Serves s h 0x0604 (.bufferMigrate h) c stNoResource [] (Same s))) ∧
    (∀ pc, pc = c.f 0 0 5 → pc ∉ s.pool.excl → s.handlesOn pc = [] →
      (c.f 0 8 1 = 1 → Serves s h 0x0606 (.poolExclude h) c stOk [] fun t => t.pool.excl = pc :: s.pool.excl ∧ t.pool.buf = s.pool.buf) ∧
      (c.f 0 8 1 = 0 → Serves s h 0x0606 (.poolExcludeLift h) c stIgnored [] (Same s))) ∧
    (∀ pc, pc = c.f 0 0 5 → pc ∉ s.pool.excl → s.handlesOn pc ≠ [] → c.f 0 8 1 = 1 →
      let u : State := { s with pool.excl := pc :: s.pool.excl }
      (∀ v, u.planAll pc = some v → Serves s h 0x0606 (.poolExclude h) c stQueued [] fun t => t.pool.excl = pc :: s.pool.excl ∧
        t.pool.mig = v.pool.mig ∧ t.pool.moves = s.pool.moves ++ [(c.bg h, s.handlesOn pc)]) ∧
      (u.planAll pc = none → Serves s h 0x0606 (.poolExclude h) c stNoResource [] fun t => t.pool = u.pool)) ∧
    (∀ pc, pc = c.f 0 0 5 → pc ∈ s.pool.excl → c.f 0 8 1 = 1 → Serves s h 0x0606 (.poolExclude h) c stIgnored [] (Same s)) ∧
    (∀ pc, pc = c.f 0 0 5 → pc ∈ s.pool.excl → c.f 0 8 1 = 0 → Serves s h 0x0606 (.poolExcludeLift h) c stOk []
      fun t => t.pool.excl = s.pool.excl.erase pc ∧ t.pool.buf = s.pool.buf)) ∧
  (∀ (s u : State) (w : Bool) (bw lat n : Nat) (old : List Nat) (p : Place), s.placeHbm w bw lat n old = some (p, u) →
    ∀ pc ∈ p.chans, (s.pch pc).serves = true ∧ (s.pch pc).retrains = [] ∧ pc ∉ s.pool.excl ∧ pc ∉ old ∧
      s.committed pc + bwShare bw ≤ bwLimit) ∧
  (∀ (s : State) (h : HostId) (c : Cmd), let first := 1024 * h.val + c.f 0 0 10
    (∀ hd b, hd = c.f 1 0 20 → s.buf hd = some b → b.isStore = false → reaches c.world b.world = true →
      (∀ i < c.f 0 16 10, s.sliceAt (first + i) = none) →
      Serves s h 0x0607 (.apertureMap h) c stOk [] fun t =>
        (∀ i < c.f 0 16 10, t.sliceAt (first + i) = some (hd, c.f 1 20 36 + 2 ^ 26 * i)) ∧
        (∀ k, k < first ∨ first + c.f 0 16 10 ≤ k → t.sliceAt k = s.sliceAt k) ∧ t.pool.buf = s.pool.buf) ∧
    (∀ i, i < c.f 0 16 10 → (s.sliceAt (first + i)).isSome = true →
      Serves s h 0x0608 (.apertureUnmap h) c stOk [] fun t => (∀ j < c.f 0 16 10, t.sliceAt (first + j) = none) ∧
        ∀ k, k < first ∨ first + c.f 0 16 10 ≤ k → t.sliceAt k = s.sliceAt k) ∧
    ((∀ i < c.f 0 16 10, s.sliceAt (first + i) = none) → Serves s h 0x0608 (.apertureUnmap h) c stIgnored [] (Same s)) ∧
    ((s.mb h).running = some c → c.code = 0x0609 → Yields (.apertureQuery h) s fun t => Same s t ∧ (t.mb h).running = none ∧
      ∃ l, l.length = 6 ∧ Gave t h c stOk 0 l)) ∧
  (∀ (s : State) (hd : Nat) (b : Buf) (m : Migration), s.buf hd = some b → (s.pool.mig.take 4).find? (fun m => m.handle = hd) = some m →
    (m.bound < b.size → s.pwr.mode ≠ .hold → b.place.exists_ = true → m.dest.exists_ = true →
      Yields (.migrationStep hd) s fun t => t.migOf hd = some { m with bound := m.bound + 1 } ∧ t.buf hd = some b) ∧
    (m.bound < b.size → s.pwr.mode ≠ .hold → b.place.exists_ = false → exec (.migrationStep hd) s = .fault .noSuchLine) ∧
    (b.size ≤ m.bound → Yields (.migrationComplete hd) s fun t => t.buf hd = some { b with place := m.dest, fill := none } ∧
      (∀ k ≠ hd, t.buf k = s.buf k) ∧ t.pool.mig = dropMig hd s.pool.mig) ∧
    (∀ who, s.hg.cache.contains ((s.asker who).kind, (s.asker who).index, hd) = false →
      Yields (.handleTranslationMiss who hd) s fun t => ((s.asker who).kind, (s.asker who).index, hd) ∈ t.hg.cache ∧
        t.pool = s.pool))

/-! ## Stipple engines (08) -/

/-- Engine `e` stands before instruction `i`, which it may issue and which is free of errors, breaks and a pending abort. -/
def Issues (s : State) (e : EngineId) (i : Ins) : Prop :=
  s.issues e = true ∧ s.mem.pmemBad.get false (2048 * e.val + (s.eng e).pc.toNat) = false ∧ s.insAt e (s.eng e).pc.toNat = i ∧
    ((s.eng e).skipBreak = true ∨ (s.eng e).breakAt e (s.eng e).pc.toNat = none) ∧ (s.eng e).watched = false ∧
    (s.eng e).wdExpired = false ∧ (s.eng e).st ≠ .stepping

/-- The engine after a bundle: the next issue of a REPEAT, or the next instruction (R169, R172). -/
def afterBundle (x : Engine) (p : Nat) : Engine :=
  match x.rep with
  | some n => if n ≤ 1 then ({ x with rep := none }).advance p else { x with rep := some (n - 1), skipBreak := true }
  | none => x.advance p

/-- R164, R167, R169: each arithmetic operation issues and completes. A bundle that holds it and no memory operation
issues when its operands are ready; the engine takes the operation's result and goes to the next issue, and nothing
outside the engine changes. The row of MNOP issues every such bundle.
R160 to R164: what each arithmetic operation writes, and that it writes nothing else. -/
def Obligations.ArithmeticRuns : Prop :=
  (∀ (s : State) (e : EngineId) (b : Bundle),
    Issues s e (.bundle b) → b.illegal = false → b.s0.mop = 0 → b.s1.mop = 0 →
    let x := s.eng e
    let c := x.stall (x.reads b)
    let runs := fun i : Instr => Yields i s fun t => t = s.setEng e (t.eng e) ∧
      t.eng e = afterBundle { ((x.land c).arithOp b c) with cycles := c + 1, lastPc := x.pc, skipBreak := false } x.pc.toNat
    runs (.opMnop e) ∧
    (b.aop = 0x00 → runs (.opAnop e)) ∧ (b.aop = 0x10 → runs (.opCmac2 e)) ∧ (b.aop = 0x11 → runs (.opCdot e)) ∧
    (b.aop = 0x18 → runs (.opXmac2 e)) ∧ (b.aop = 0x19 → runs (.opXdot e)) ∧ (b.aop = 0x20 → runs (.opRnd2 e)) ∧
    (b.aop = 0x21 → runs (.opXrnd2 e)) ∧ (b.aop = 0x22 → runs (.opAclr e)) ∧ (b.aop = 0x23 → runs (.opAmov e)) ∧
    (b.aop = 0x24 → runs (.opAadd e)) ∧ (b.aop = 0x25 → runs (.opExpa e)) ∧ (b.aop = 0x26 → runs (.opNorma e)) ∧
    (b.aop = 0x27 → runs (.opAshr e)) ∧ (b.aop = 0x30 → runs (.opAdd4 e)) ∧ (b.aop = 0x31 → runs (.opSub4 e)) ∧
    (b.aop = 0x32 → runs (.opBfly e)) ∧ (b.aop = 0x34 → runs (.opShl4 e)) ∧ (b.aop = 0x35 → runs (.opShra4 e)) ∧
    (b.aop = 0x36 → runs (.opAnd e)) ∧ (b.aop = 0x37 → runs (.opOr e)) ∧ (b.aop = 0x38 → runs (.opXor e)) ∧
    (b.aop = 0x39 → runs (.opMov e)) ∧ (b.aop = 0x3A → runs (.opConj e)) ∧ (b.aop = 0x3B → runs (.opSwap e)) ∧
    (b.aop = 0x3C → runs (.opExpw e)) ∧ (b.aop = 0x3D → runs (.opCmpw e))) ∧
  (∀ (x : Engine) (b : Bundle) (c : Nat),
    let y := x.arithOp b c
    let w1 := x.word b.v b.as1
    let w2 := x.word b.v b.as2
    let l1 := fun i => laneS w1 i
    let l2 := fun i => laneS w2 i
    let r := y.word b.v b.ad
    let lane := fun i => wordLane r i
    let sub := b.ax / 2 % 2 = 1
    let acc := fun n part => if b.ax / 4 % 2 = 1 then (0 : Int) else (part (x.accOf n) : BitVec 48).toInt
    let add := fun a m : Int => if sub then a - m else a + m
    let conj := b.ax % 2 = 1
    let prod := fun k => if conj
      then (l1 (2 * k) * l2 (2 * k) + l1 (2 * k + 1) * l2 (2 * k + 1), l1 (2 * k + 1) * l2 (2 * k) - l1 (2 * k) * l2 (2 * k + 1))
      else (l1 (2 * k) * l2 (2 * k) - l1 (2 * k + 1) * l2 (2 * k + 1), l1 (2 * k) * l2 (2 * k + 1) + l1 (2 * k + 1) * l2 (2 * k))
    let pair := 2 * (b.ad / 2 % 2)
    let d := b.ad % 4
    let fit := fun v => accFit 48 x.asat v
    (b.aop = 0x10 → ∀ k < 2, (y.accOf (pair + k)).re = fit (add (acc (pair + k) Acc.re) (prod k).1) ∧
      (y.accOf (pair + k)).im = fit (add (acc (pair + k) Acc.im) (prod k).2)) ∧
    (b.aop = 0x11 → (y.accOf d).re = fit (add (acc d Acc.re) ((prod 0).1 + (prod 1).1)) ∧
      (y.accOf d).im = fit (add (acc d Acc.im) ((prod 0).2 + (prod 1).2))) ∧
    (b.aop = 0x22 → y.accOf d = {}) ∧
    (b.aop = 0x23 → y.accOf d = x.accOf (b.as1 % 4)) ∧
    (b.aop = 0x20 → ∀ k < 2, ∀ a, a = x.accOf (2 * (b.as1 / 2 % 2) + k) →
      lane (2 * k) = BitVec.ofInt 16 (x.rnd 16 47 a.re.toInt).1 ∧ lane (2 * k + 1) = BitVec.ofInt 16 (x.rnd 16 47 a.im.toInt).1) ∧
    (∀ i < 4,
      (b.aop = 0x30 → lane i = BitVec.ofInt 16 (if conj then clampS 16 (l1 i + l2 i) else l1 i + l2 i)) ∧
      (b.aop = 0x31 → lane i = BitVec.ofInt 16 (if conj then clampS 16 (l1 i - l2 i) else l1 i - l2 i)) ∧
      (b.aop = 0x34 → lane i = BitVec.ofInt 16 (l1 i * 2 ^ b.ax)) ∧
      (b.aop = 0x35 → lane i = BitVec.ofInt 16 (roundShift (l1 i) b.ax))) ∧
    (b.aop = 0x36 → r = w1 &&& w2) ∧ (b.aop = 0x37 → r = w1 ||| w2) ∧ (b.aop = 0x38 → r = w1 ^^^ w2) ∧ (b.aop = 0x39 → r = w1) ∧
    (b.aop = 0x3A → lane 0 = wordLane w1 0 ∧ lane 2 = wordLane w1 2 ∧ lane 1 = BitVec.ofInt 16 (clampS 16 (-l1 1)) ∧
      lane 3 = BitVec.ofInt 16 (clampS 16 (-l1 3))) ∧
    (b.aop = 0x3B → lane 0 = wordLane w1 2 ∧ lane 1 = wordLane w1 3 ∧ lane 2 = wordLane w1 0 ∧ lane 3 = wordLane w1 1) ∧
    (b.aop = 0x3D → y = { x with z := decide (l1 0 = l2 0), n := decide (l1 0 < l2 0) }) ∧
    (b.aop = 0x00 → y = x) ∧
    -- frame
    (adWord b.aop = false → y.w = x.w ∧ y.v = x.v) ∧ (adAcc b.aop = false → y.acc = x.acc) ∧
    (b.v = true → y.w = x.w) ∧ (b.v = false → y.v = x.v ∧ ∀ n ≠ b.ad, y.w.get 0 n = x.w.get 0 n) ∧
    (b.aop ≠ 0x3D → y.z = x.z ∧ y.n = x.n) ∧
    y.a = x.a ∧ y.m = x.m ∧ y.pc = x.pc ∧ y.stack = x.stack ∧ y.depth = x.depth ∧ y.arith = x.arith ∧ y.stage = x.stage ∧ y.resv = x.resv ∧
    y.lkok = x.lkok ∧ y.herr = x.herr ∧ y.task = x.task ∧ y.rbase = x.rbase ∧ y.loop = x.loop ∧ y.rep = x.rep)

/-- The bundle holds the memory operation `t` and no other operation. -/
def OnlySlot (b : Bundle) (t : Slot) : Prop := b.aop = 0 ∧ ((b.s0 = t ∧ b.s1.mop = 0) ∨ (b.s1 = t ∧ b.s0.mop = 0))

/-- R149, R159, R165, R167, R173, R177: each memory operation. A load is in flight until three cycles after its issue; a store
changes the bytes it names, under its alias, and no other byte; the address register is updated; nothing else of the block
changes. -/
def Obligations.MemoryOperations : Prop :=
  ∀ (s : State) (e : EngineId) (b : Bundle) (t : Slot), OnlySlot b t → Issues s e (.bundle b) → b.illegal = false →
    let x0 := s.eng e
    let c := x0.stall (x0.reads b)
    let x := x0.land c
    let areg := (x.a.get 0 t.ma).toNat
    let a := slotAddr t areg
    let o := a % 65536
    let n := mopWidth t.mop
    let w := x.word b.v t.mw
    let moved := fun u : State => (u.eng e).a.get 0 t.ma = BitVec.ofNat 24 (addrUpdate t.mam areg (x.m.get 0 t.mm).toNat) ∧
      (∀ r, r ≠ t.ma → (u.eng e).a.get 0 r = x.a.get 0 r) ∧
      (u.eng e).w = x.w ∧ (u.eng e).v = x.v ∧ (u.eng e).acc = x.acc ∧ (u.eng e).m = x.m ∧ (u.eng e).pc =
        (afterBundle x x.pc.toNat).pc ∧ (∀ g, g ≠ e.val → u.eng g = s.eng g) ∧
      u = { s with stp.eng := u.stp.eng, mem := { s.mem with dmem := u.mem.dmem, dmemBad := u.mem.dmemBad } }
    let stored := fun (u : State) (al : Nat) (bytes : List Byte) =>
      (∀ i < n, u.mem.dmem.read (dmemAddr e o + i) = aliasByte al (s.mem.dmem.read (dmemAddr e o + i)) (bytes.getD i 0)) ∧
      ∀ k, k < dmemAddr e o ∨ dmemAddr e o + n ≤ k → u.mem.dmem.read k = s.mem.dmem.read k
    let loads := fun i : Instr => a / 65536 ≠ 3 → (t.mop = 8 → a / 65536 = 0) → dmemWordBad s e o = false →
      x0.watchAt e a n false = none → Yields i s fun u => moved u ∧ u.mem = s.mem ∧ (u.eng e).stage = x.stage ∧
        (u.eng e).loads = x.loads ++ [{
          v := b.v, reg := if b.v then x.vphys t.mw else t.mw, lanes := (loadLanes t (leNat (s.mem.dmem.readN (dmemAddr e o) n))).1,
          value := (loadLanes t (leNat (s.mem.dmem.readN (dmemAddr e o) n))).2, due := c + 3 }] ∧
        (t.mop = 8 → (u.eng e).resv = some (o / 8) ∧ (u.eng e).locked = true) ∧
        (t.mop ≠ 8 → (u.eng e).resv = x.resv ∧ (u.eng e).locked = x.locked)
    let stores := fun i : Instr => a / 65536 ≠ 3 → dmemWordBad s e o = false → x0.watchAt e a n true = none →
      Yields i s fun u => moved u ∧ stored u (a / 65536) (storeBytes t w) ∧ (u.eng e).loads = x.loads ∧
        (u.eng e).stage = x.stage ∧ ((u.eng e).resv = if x.resv = some (o / 8) then none else x.resv)
    (t.mop = 1 → loads (.opLd e)) ∧ (t.mop = 3 → loads (.opLdh e)) ∧ (t.mop = 5 → loads (.opLdl e)) ∧
    (t.mop = 7 → loads (.opLdb e)) ∧ (t.mop = 8 → loads (.opLdx e)) ∧
    (t.mop = 2 → stores (.opSt e)) ∧ (t.mop = 4 → stores (.opSth e)) ∧ (t.mop = 6 → stores (.opStl e)) ∧
    (t.mop = 9 → a / 65536 = 0 → x.resv = some (o / 8) → x0.watchAt e a 8 true = none →
      Yields (.opStx e) s fun u => moved u ∧ stored u 0 (leBytes 8 w.toNat) ∧ (u.eng e).lkok = true ∧ (u.eng e).resv = none) ∧
    (t.mop = 9 → a / 65536 = 0 → x.resv ≠ some (o / 8) → x0.watchAt e a 8 true = none →
      Yields (.opStx e) s fun u => moved u ∧ u.mem = s.mem ∧ (u.eng e).lkok = false ∧ (u.eng e).resv = x.resv) ∧
    (t.mop = 0xA → areg % 2 ^ 17 ≤ 98303 → x.stage.length < 32 → Yields (.opQpush e) s fun u => moved u ∧ u.mem = s.mem ∧
      (u.eng e).stage = x.stage ++ [.push (areg % 2 ^ 17) (BitVec.ofNat 2 t.mln) w]) ∧
    (t.mop = 0xB → x.stage.length < 32 → Yields (.opToken e) s fun u => moved u ∧ u.mem = s.mem ∧
      (u.eng e).stage = x.stage ++ [.token (areg % 2 ^ 13) t.mln w])

/-- R166, R169, R172, R175, R195: each control operation: the engine it leaves; nothing outside the engine changes. -/
def Obligations.ControlOperations : Prop :=
  ∀ (s : State) (e : EngineId) (c : Ctl), Issues s e (.ctl c) → (s.eng e).rep = none → c.illegal (isLead e) = false →
    let x0 := s.eng e
    let p := x0.pc.toNat
    let cy := x0.stall (c.reads x0)
    let x := { x0.land cy with cycles := cy + 1, lastPc := x0.pc, skipBreak := false }
    let taken := fun (y : Engine) (t : Nat) => { y.branch t with cycles := cy + 3 }
    let wa := x.w.get 0 c.ca
    let aa := x.a.get 0 c.ca
    let count : Nat := if c.cx % 2 = 1 then (x.a.get 0 c.cb).toNat % 2 ^ 16 else c.imm % 2 ^ 16
    let gives := fun (i : Instr) (y : Engine) => exec i s = .next (s.setEng e y)
    let put := fun d : BitVec 64 => (x.result false c.ca d cy 1).advance p
    (c.cop = 0x00 → gives (.opCnop e) (x.advance p)) ∧
    (c.cop = 0x01 → gives (.opBr e) (if x.cond c.ca then taken x (c.imm % 2048) else x.advance p)) ∧
    (c.cop = 0x02 → x0.depth < 8 → gives (.opCall e)
      (taken { x with stack := x.stack.set 0 x0.depth (BitVec.ofNat 11 (p + 1)), depth := x0.depth + 1 } (c.imm % 2048))) ∧
    (c.cop = 0x02 → 8 ≤ x0.depth → Yields (.opCall e) s fun t => (t.eng e).abort = some .stack ∧ (t.eng e).pc = x0.pc) ∧
    (c.cop = 0x03 → x0.depth ≠ 0 →
      gives (.opRet e) (taken { x with depth := x0.depth - 1 } (x0.stack.get 0 (x0.depth - 1)).toNat)) ∧
    (c.cop = 0x03 → x0.depth = 0 → Yields (.opRet e) s fun t => (t.eng e).abort = some .stack ∧ (t.eng e).pc = x0.pc) ∧
    (c.cop = 0x04 → count ≠ 0 → gives (.opRepeat e) { x.advance p with rep := some count }) ∧
    (c.cop = 0x04 → count = 0 → gives (.opRepeat e) ((x.advance p).advance (p + 1))) ∧
    (∀ l b, c.cop = 0x05 → l = fld c.imm 16 11 → x.loop = none → p + 1 ≤ l → l ≤ p + 256 → s.insAt e l = .bundle b →
      gives (.opLoop e) (if count = 0 then { x with pc := BitVec.ofNat 11 (l + 1) } else { x with
        loop := some (BitVec.ofNat 11 (p + 1), BitVec.ofNat 11 l, decide (c.cx / 2 % 2 = 1))
        lcount := BitVec.ofNat 16 count, pc := BitVec.ofNat 11 (p + 1) })) ∧
    (c.cop = 0x06 → gives (.opEnd e) { x.advance p with ending := true, resv := none, locked := false }) ∧
    (c.cop = 0x07 → gives (.opSeta e) ({ x with a := x.a.set 0 c.ca (BitVec.ofNat 24 c.imm) }.advance p)) ∧
    (c.cop = 0x08 → gives (.opSetm e) ({ x with m := x.m.set 0 c.ca (BitVec.ofNat 32 c.imm) }.advance p)) ∧
    (c.cop = 0x09 → gives (.opAdda e) ({ x with a := x.a.set 0 c.ca (aa + BitVec.ofNat 24 c.imm) }.advance p)) ∧
    (∀ v, c.cop = 0x0A → v = (if c.cx % 2 = 1 then sgn 24 c.imm else (x.a.get 0 c.cb).toInt) →
      gives (.opCmpa e) ({ x with z := decide (aa.toInt = v), n := decide (aa.toInt < v) }.advance p)) ∧
    (c.cop = 0x0B → gives (.opMvw e) (put (mergeLanes wa (lanesWord (List.replicate 4 (BitVec.ofNat 16 c.imm)))
      (BitVec.ofNat 4 (2 ^ (c.cx % 4)))))) ∧
    (c.cop = 0x0C → gives (.opMvs e) (put (BitVec.ofNat 64 (s.special e (c.cx % 16))))) ∧
    (c.cop = 0x0D → gives (.opMsv e) ((x.setSpecial (c.cx % 16) (wa.toNat % 2 ^ 32)).advance p)) ∧
    (c.cop = 0x0E → gives (.opMvaw e) ({ x with a := x.a.set 0 c.ca ((x.w.get 0 c.cb).setWidth 24) }.advance p)) ∧
    (c.cop = 0x0F → gives (.opMvwa e) (put ((x.a.get 0 c.cb).setWidth 64))) ∧
    (c.cop = 0x10 → gives (.opVmov e) ((x.result true (c.cx % 64) wa cy 1).advance p)) ∧
    (c.cop = 0x11 → gives (.opWmov e) (put (x.word true (c.cx % 64)))) ∧
    (∀ t, c.cop = 0x12 → c.xfer x = some t → x.xfers.length < 16 →
      gives (.opHget e) ({ x with xfers := x.xfers ++ [t] }.advance p)) ∧
    (∀ t, c.cop = 0x13 → c.xfer x = some t → x.xfers.length < 16 →
      gives (.opHput e) ({ x with xfers := x.xfers ++ [t] }.advance p)) ∧
    (c.cop = 0x14 → x0.xfers.length ≤ c.imm % 32 → gives (.opHwait e) (x.advance p)) ∧
    (c.cop = 0x14 → c.imm % 32 < x0.xfers.length → gives (.opHwait e) { x0 with cycles := x0.cycles + 1 })

/-! ## Task schedulers (09) -/

/-- The entry after a token is taken into operand slot `k` (R186, R188). -/
def takenOperand (x : Entry) (k : Nat) (data : BitVec 64) : Entry :=
  let f := x.filled ||| BitVec.ofNat 4 (2 ^ k)
  { x with st := .filling, filled := f, ops := x.ops.set 0 k data, eval := decide (f &&& x.slotmask = x.slotmask) }

/-- R185 to R188: a word reaches an operand slot from each source; a commit buffer's word waits while the slot is taken. -/
def Obligations.OperandWrites : Prop :=
  ∀ (s : State) (n : EntryId) (k : Fin 4) (data : BitVec 64), s.running = true →
    let given := fun t : State => t.ent n = takenOperand (s.ent n) k data ∧ ∀ j ≠ n.val, t.ent j = s.ent j
    let waits := fun (hh i : Nat) (w : Commit) => (s.sch hh).tokenAt n k data = some i ∧ (s.sch hh).waiting[i]? = some w ∧
      (s.sch hh).foremost i w = true
    (∀ (hh : HeathId) i w src, waits hh i w →
      (entHeath n = hh.val ∧ src = OpSource.commit hh) ∨ (entHeath n ≠ hh.val ∧ src = OpSource.hedgerow hh) ∨
        ((s.sch hh).arrivals.any (fun v => decide (v.item = .token n k data)) = true ∧ src = OpSource.hedgerow hh) →
      (s.opCheck n k w.world = .taken → Yields (.operandWrite src n k data) s fun t => given t ∧
        (t.sch hh).waiting = (s.sch hh).waiting.eraseIdx i ∧ t.que = s.que) ∧
      (s.opCheck n k w.world = .occupied → exec (.operandWrite src n k data) s = .next s)) ∧
    (∀ (q : QueueId) f w, s.forwards q = true → (s.queue q).fwd = some f → f.getLsbD 63 = true → f.toNat % 2 ^ 17 = n.val →
      fld f.toNat 17 2 = k.val → (s.queue q).head = some w → w.data = data → s.opCheck n k (s.qWorld q) = .taken →
      (Yields (.operandWrite (.forward q) n k data) s fun t => given t ∧ t.queue q = (s.queue q).pop) ∧
      (Yields (.queueForwardOffer q) s fun t => given t ∧ t.queue q = (s.queue q).pop)) ∧
    (∀ key : CueKey, s.cueDue key = true → (s.cue key).action = 0x0501 → (s.cue key).target = n.val → (s.cue key).opSlot = k.val →
      (s.cue key).token = data → s.opCheck n k (s.cue key).world = .taken →
      Yields (.operandWrite (.cue key) n k data) s fun t => given t ∧ t.que = s.que)

/-- R188, R191, R195, R196, R178, R179: a task from ready to committed, and a task that is aborted. -/
def Obligations.TasksRun : Prop :=
  ∀ s : State, s.running = true →
    -- readiness
    (∀ n : EntryId, (s.ent n).eval = true →
      ((s.ent n).delay = 0 → Yields (.taskReadinessEval n) s fun t => t.ent n = { s.ent n with eval := false, st := .ready } ∧
        (t.sch (entHeath n)).ready = (s.sch (entHeath n)).ready ++ [n.val] ∧ ∀ j ≠ n.val, t.ent j = s.ent j) ∧
      ((s.ent n).delay ≠ 0 → Yields (.taskReadinessEval n) s fun t => t.ent n = { s.ent n with
        eval := false, st := .delayed, due := s.tickCount (entHeath n) + (s.ent n).delay.setWidth 32 } ∧
        (t.sch (entHeath n)).ready = (s.sch (entHeath n)).ready ∧ ∀ j ≠ n.val, t.ent j = s.ent j)) ∧
    -- dispatch
    (∀ (hh : HeathId) n rest e, s.readyOrder hh = n :: rest → s.canEver hh (s.ent n) = true →
      s.chooseEngine hh (s.ent n) = some e → s.canReserve hh (s.ent n) = true →
      Yields (.taskDispatch hh) s fun t => t.ent n = { s.ent n with st := .dispatched } ∧
        t.eng e = { s.eng e with prefetch := some n } ∧ (t.sch hh).ready = (s.sch hh).ready.erase n ∧
        (t.sch hh).resv = (s.sch hh).resv + 32 ∧ t = { s with stp := t.stp }) ∧
    (∀ hh : HeathId, s.readyOrder hh = [] → exec (.taskDispatch hh) s = .next s) ∧
    -- start
    (∀ (e : EngineId) n, (s.eng e).prefetch = some n → (s.eng e).task = none → (s.eng e).abort = none → (s.eng e).xfers = [] →
      (s.eng e).st = .idle →
      Yields (.taskStart e) s fun t => (t.eng e).task = some n ∧ (t.eng e).prefetch = none ∧ (t.eng e).st = .running ∧
        (t.eng e).pc = (s.ent n).pc ∧ (t.eng e).stack = {} ∧ (t.eng e).depth = 0 ∧ (t.eng e).stage = [] ∧
        (∀ k < 4, (t.eng e).w.get 0 (12 + k) = (s.ent n).ops.get 0 k) ∧ (∀ k < 12, (t.eng e).w.get 0 k = 0) ∧
        (t.eng e).wdog = (s.row (engRow e)).period ∧ (t.eng e).world = (s.row (engRow e)).world ∧
        t.ent n = { s.ent n with st := .running, lastEng := some e.val } ∧ t = { s with stp := t.stp }) ∧
    -- commit
    (∀ (e : EngineId) n, (s.eng e).task = some n → (s.eng e).ending = true → (s.eng e).xfers = [] → (s.eng e).abort = none →
      (s.eng e).st = .running →
      Yields (.taskCommit e) s fun t => (t.eng e).task = none ∧ (t.eng e).stage = [] ∧ (t.eng e).st = .idle ∧
        (t.ent n).st = (if (s.ent n).rearm then .idle else .free) ∧ (t.ent n).filled = 0 ∧ (t.ent n).ops = {} ∧
        (t.sch (entHeath n)).commit.map Commit.item = (s.sch (entHeath n)).commit.map Commit.item ++ (s.eng e).stage ∧
        t = { s with stp := t.stp }) ∧
    -- delivery
    (∀ (hh : HeathId) i w, (s.sch hh).waiting[i]? = some w → (s.sch hh).foremost i w = true →
      (∀ n k data, w.item = .token n k data → s.opCheck n k w.world = .taken →
        Yields (.commitBufferDelivery hh i) s fun t => t.ent n = takenOperand (s.ent n) k data ∧
          (t.sch hh).waiting = (s.sch hh).waiting.eraseIdx i) ∧
      (∀ q p data j, w.item = .push q p data → (s.queue q).slotOf (srcCode 2 hh) = some j → ((s.queue q).slot j).held ≠ 0 →
        (w.rsv = false → s.schedAvail hh q ≠ 0) → s.qCol q = .on → (s.mea (q / 512)).gate.isOpen = true →
        reaches w.world (s.qWorld q) = true →
        Yields (.commitBufferDelivery hh i) s fun t => t.queue q = (s.queue q).push j p (s.qData q data) ∧
          (t.sch hh).waiting = (s.sch hh).waiting.eraseIdx i ∧ ∀ r ≠ q, t.queue r = s.queue r)) ∧
    -- watchdog and abort
    (∀ e : EngineId, (s.eng e).wdogOn = true → (s.eng e).wdog = 0 → (s.eng e).task.isSome = true → (s.eng e).abort = none →
      (s.eng e).st ≠ .halted →
      ((s.eng e).rep = none → Yields (.engineWatchdogExpiry e) s fun t => (t.eng e).abort = some .watchdog ∧
        (t.eng e).stage = [] ∧ (t.eng e).wdogOn = false ∧ (t.eng e).task = (s.eng e).task ∧ t = { s with stp := t.stp }) ∧
      ((s.eng e).rep.isSome = true → Yields (.engineWatchdogExpiry e) s fun t =>
        t.eng e = { s.eng e with wdogOn := false, wdExpired := true } ∧ t = { s with stp := t.stp })) ∧
    (∀ (e : EngineId) n c, (s.eng e).abort = some c → (s.eng e).task = some n → (s.eng e).xfers = [] →
      (c = .watchdog ∨ c = .dmemEcc ∨ c = .pmemEcc → (s.ent n).retry.toNat + 1 ≤ (s.row (engRow e)).limit →
        Yields (.taskAbortComplete e) s fun t => (t.eng e).task = none ∧ (t.eng e).abort = none ∧
          t.ent n = { s.ent n with retry := satInc (s.ent n).retry, st := .ready, lastPc := (s.eng e).lastPc } ∧
          (t.sch (entHeath n)).ready = n :: (s.sch (entHeath n)).ready) ∧
      ((c = .watchdog ∨ c = .dmemEcc ∨ c = .pmemEcc → (s.row (engRow e)).limit < (s.ent n).retry.toNat + 1) →
        Yields (.taskAbortComplete e) s fun t => (t.eng e).task = none ∧ (t.eng e).abort = none ∧
          t.ent n = { s.ent n with st := .held, lastPc := (s.eng e).lastPc } ∧ (t.sch (entHeath n)).ready = (s.sch (entHeath n)).ready)) ∧
    -- the end of a transfer
    (∀ (e : EngineId) i t, (s.eng e).xfers[i]? = some t → (s.eng e).xferFree i t = true →
      Yields (.hedgerowTransferEnd e i) s fun u => (u.eng e).xfers = (s.eng e).xfers.eraseIdx i ∧ (u.eng e).pc = (s.eng e).pc ∧
        (u.eng e).stage = (s.eng e).stage)

/-- R183, R184, R198: the commands of the matching-store entries.
R152, R178, R182, R198 to R200: the commands of the engines and rows, and what follows them.
R152, R200: the self-test and the load of a drained row. -/
def Obligations.RowsAndEntriesServed : Prop :=
  (∀ (s : State) (h : HostId) (c : Cmd) (n : Nat), n = c.f 0 0 13 → reaches c.world (s.ent n).world = true →
    ((c.f 2 60 1 = 1 → s.pwr.owner = h.val) → (s.ent n).st = .free ∨ (s.ent n).st = .idle →
      Serves s h 0x0805 (.taskEntrySet h) c stOk [] fun t => (∀ k ≠ n, t.ent k = s.ent k) ∧ t.ent n = {
        st := .idle, world := decide (c.f 2 60 1 = 1), rearm := decide (c.f 2 59 1 = 1), prio := BitVec.ofNat 2 (c.f 2 57 2),
        leadsel := BitVec.ofNat 2 (c.f 2 55 2), rowset := BitVec.ofNat 8 (c.f 2 47 8), pc := BitVec.ofNat 11 (c.f 2 36 11),
        slotmask := BitVec.ofNat 4 (c.f 2 32 4), dlist := BitVec.ofNat 2 (c.f 2 26 2), delay := BitVec.ofNat 16 (c.f 2 10 16),
        outq0 := BitVec.ofNat 17 (c.f 1 47 17), outn0 := BitVec.ofNat 6 (c.f 1 41 6), outq1 := BitVec.ofNat 17 (c.f 1 24 17),
        outn1 := BitVec.ofNat 6 (c.f 1 18 6) }) ∧
    ((c.f 2 60 1 = 1 → s.pwr.owner = h.val) → (s.ent n).st ≠ .free → (s.ent n).st ≠ .idle →
      Serves s h 0x0805 (.taskEntrySet h) c stBusy [] (Same s)) ∧
    ((s.ent n).st = .free ∨ (s.ent n).st = .idle ∨ (s.ent n).st = .filling ∨ (s.ent n).st = .held →
      Serves s h 0x0806 (.taskEntryClear h) c stOk [popCount 4 (s.ent n).filled.toNat] fun t =>
        t.ent n = { world := (s.ent n).world } ∧ ∀ k ≠ n, t.ent k = s.ent k) ∧
    ((s.ent n).st = .held → Serves s h 0x0807 (.taskEntryRetry h) c stOk [] fun t =>
      t.ent n = { s.ent n with retry := 0, st := .ready } ∧ (t.sch (entHeath n)).ready = (s.sch (entHeath n)).ready ++ [n]) ∧
    ((s.ent n).st ≠ .held → Serves s h 0x0807 (.taskEntryRetry h) c stIgnored [] (Same s)) ∧
    Serves s h 0x0808 (.taskEntryQuery h) c stOk
      ([(s.ent n).lowWord, (s.ent n).highWord] ++ (List.range 4).map fun k => ((s.ent n).ops.get 0 k).toNat) (Same s)) ∧
  (∀ (s : State) (h : HostId) (c : Cmd) (r : Nat), r = c.f 0 0 5 →
    (reaches c.world (s.row r).world = true →
      Serves s h 0x0802 (.rowConfigure h) c stOk [] (fun t =>
        t.row r = { s.row r with period := c.f 1 0 20, limit := c.f 1 24 4 } ∧ (∀ k ≠ r, t.row k = s.row k) ∧ t.stp.eng = s.stp.eng) ∧
      Serves s h 0x0803 (.rowReset h) c stOk [] (fun t => (t.row r).resetSince = true ∧ (∀ e ∈ rowEngines r,
        (t.eng e).task = none ∧ (t.eng e).prefetch = none ∧ (t.eng e).stage = [] ∧ (t.eng e).st = .idle) ∧
        ∀ e, e ∉ rowEngines r → t.eng e = s.eng e) ∧
      Serves s h 0x0A05 (.rowSelftest h) c stQueued [] (fun t => (t.row r).tests = (s.row r).tests ++ [c.bg h] ∧
        (t.row r).draining = true ∧ c.bg h ∈ t.wrd.bg ∧ ∀ e ∈ rowEngines r, (t.eng e).prefetch = none) ∧
      ∀ b, s.buf (c.f 1 0 20) = some b → b.isStore = false → reaches c.world b.world = true →
        Serves s h 0x0801 (.rowLoad h) c stQueued [] fun t =>
          (t.row r).loads = (s.row r).loads ++ [(c.bg h, c.f 1 0 20, c.f 1 20 36, c.arg 2, c.world)] ∧
          (t.row r).draining = true ∧ c.bg h ∈ t.wrd.bg ∧ ∀ e ∈ rowEngines r, (t.eng e).prefetch = none) ∧
    (∀ e, e = c.f 0 0 9 → reaches c.world (s.row (engRow e)).world = true →
      Serves s h 0x0804 (.engineReset h) c stOk [] fun t => (t.eng e).task = none ∧ (t.eng e).prefetch = none ∧
        (t.eng e).stage = [] ∧ (t.eng e).st = .idle ∧ (∀ n, (s.eng e).task = some n → (t.ent n).st = .ready) ∧
        ∀ g ≠ e, t.eng g = s.eng g)) ∧
  (∀ (s : State) (r : RowId),
    (s.running = true → (s.row r).tests ≠ [] → (s.row r).testing = false → (s.row r).gate = .opened → s.rowDrained r = true →
      Yields (.rowSelftestRun r) s fun t => t = (s.scrambleRow r).setRow r { s.row r with testing := true }) ∧
    (∀ b rest ok, (s.row r).tests = b :: rest → (s.row r).testing = true →
      Yields (.rowSelftestDone r ok) s fun t => (t.row r).tests = rest ∧ (t.row r).testing = false ∧
        (t.row r).offline = (if ok then (s.row r).offline && !(s.row r).resetSince else true) ∧ t.stp.eng = s.stp.eng) ∧
    (∀ b hd off n w rest, (s.row r).loads = (b, hd, off, n, w) :: rest → s.running = true → s.rowDrained r = true →
      (s.row r).testing = false → (s.row r).gate = .opened → (s.bufRead (forCommand b.host w) hd off n).st = hsOk →
      Yields (.rowLoadDone r) s fun t => (t.row r).loads = rest ∧
        match Config.rowImage (s.bufRead (forCommand b.host w) hd off n).data with
        | none => t.mem = (s.bufRead (forCommand b.host w) hd off n).s.mem
        | some i => ∀ e ∈ rowEngines r,
          (∀ k < 2048, t.mem.pmem.get 0 (2048 * e + k) = (if isLead e then i.leadCode else i.code).getD k 0) ∧
          (∀ k < 65536, t.mem.dmem.dflt = 0 → t.mem.dmem.read (65536 * e + k) = (if isLead e then i.leadData else i.data).getD k 0)))

/-! ## Hedgerow (10) -/

/-- The response of a request joins those on their way. -/
def Answers (s t : State) (r : Requester) (tag : Nat) (st : BitVec 3) (data : List Byte) : Prop :=
  t.hg.resp = s.hg.resp ++ [{ who := r, tag := tag, status := st, data := data }]

/-- R205 to R208, R123, R124, R505: each transaction of the hedgerow, its response and its time-out. -/
def Obligations.HedgerowTransactions : Prop :=
  ∀ (s : State) (who : Source), s.alive = true →
    let a := s.asker who
    let r := a.requester
    -- posted words
    (s.mayIssue who none = true → ∀ role,
      (∀ (q : QueueId) p data j, (s.mea (q.val / 512)).gate.isOpen = true → s.qCol q = .on →
        (s.queue q).slotOf (pushSrc who) = some j → reaches (s.pusher who role).world (s.qWorld q) = true →
        ((s.queue q).slot j).held ≠ 0 →
        Yields (.hedgerowQpush ⟨who, role⟩ q p data) s fun t => t = s.setQueue q ((s.queue q).push j p (s.qData q data))) ∧
      (∀ (n : EntryId) (k : Fin 4) data, s.opCheck n k (s.pusher who role).world = .taken →
        ((s.sch (entHeath n)).waiting.all fun v => decide (v.item.target ≠ (1, n.val, k.val))) = true →
        Yields (.hedgerowToken ⟨who, role⟩ n k data) s fun t => t.ent n = takenOperand (s.ent n) k data ∧
          (t.sch (entHeath n)).waiting = (s.sch (entHeath n)).waiting ∧ ∀ j ≠ n.val, t.ent j = s.ent j)) ∧
    -- transactions with a response
    (∀ tag : Nat, s.mayIssue who (some tag) = true →
      (∀ h off n, s.linesExist h = true →
        (lenOk n = true → s.heldInHold h = false → Yields (.hedgerowBread who tag h off n) s fun t =>
          let g := (s.issued who tag false).bufRead a h (off / 8 * 8) n
          Answers s t r tag g.st g.data ∧ t.mem = g.s.mem ∧ t.hbm = g.s.hbm) ∧
        (lenOk n = true → s.heldInHold h = true → Yields (.hedgerowBread who tag h off n) s fun t =>
          t.hg.resp = s.hg.resp ∧ t.hg.wait = s.hg.wait ++ [(r, tag)] ∧ t.hg.held.length = s.hg.held.length + 1 ∧
          t.mem = s.mem ∧ t.hbm = s.hbm) ∧
        (lenOk n = false → Yields (.hedgerowBread who tag h off n) s fun t => Answers s t r tag hsRange [] ∧ t.mem = s.mem ∧
          t.hbm = s.hbm)) ∧
      (∀ h off n, s.linesExist h = false → exec (.hedgerowBread who tag h off n) s = .fault .noSuchLine) ∧
      (∀ h off data be, s.linesExist h = true → s.heldInHold h = false → lenOk data.length = true → be.length = data.length →
        Yields (.hedgerowBwrite who tag h off data be) s fun t =>
          let g := (s.issued who tag true).bufWrite a h (off / 8 * 8) data be
          Answers s t r tag g.st [] ∧ t.mem = g.s.mem ∧ t.hbm = g.s.hbm) ∧
      (∀ (addr : BitVec 56) n k i o, lenOk n = true → directAddr (addr.toNat / 8 * 8) = some (k, i, o) →
        (k ≠ 3 → Yields (.hedgerowDread who tag addr n) s fun t => let g := (s.issued who tag false).directRead a k i o n
          Answers s t r tag g.st g.data ∧ t.mem = g.s.mem) ∧
        (k = 3 → o < directWin 3 → s.targetRefuses i a.world = none → Yields (.hedgerowDread who tag addr n) s fun t =>
          (r, tag) ∈ t.hg.wait ∧ t.hg.resp = s.hg.resp ∧ t.mem = s.mem)) ∧
      (∀ (addr : BitVec 56) n, lenOk n = false ∨ directAddr (addr.toNat / 8 * 8) = none →
        Yields (.hedgerowDread who tag addr n) s fun t => Answers s t r tag hsRange [] ∧ t.mem = s.mem) ∧
      (∀ (addr : BitVec 56) data be k i o, lenOk data.length = true → be.length = data.length →
        directAddr (addr.toNat / 8 * 8) = some (k, i, o) → k ≠ 3 →
        Yields (.hedgerowDwrite who tag addr data be) s fun t => let g := (s.issued who tag true).directWrite a k i o data be
          Answers s t r tag g.st [] ∧ t.mem = g.s.mem) ∧
      (∀ q : QueueId, (s.mea (q.val / 512)).gate.isOpen = true → s.qServes q = true → reaches a.world (s.qWorld q) = true →
        s.qCol q = .on → ∀ st, st = (if (s.queue q).head.any QWord.err then hsError else hsOk) →
        (Yields (.hedgerowQpeek who tag q) s fun t => Answers s t r tag st (leBytes 8 (match (s.queue q).head with
          | some w => w.data.toNat | none => 0) ++ leBytes 8 (s.queue q).headTag) ∧ t.que = s.que) ∧
        (∀ seq, (s.queue q).head.isSome = true → seq = (s.queue q).seq → Yields (.hedgerowQpop who tag q seq) s fun t =>
          Answers s t r tag st [] ∧ t.queue q = (s.queue q).pop) ∧
        (∀ seq, seq ≠ (s.queue q).seq → Yields (.hedgerowQpop who tag q seq) s fun t => Answers s t r tag hsError [] ∧
          t.queue q = { s.queue q with popIgn := satInc (s.queue q).popIgn }))) ∧
    -- responses and time-outs
    (∀ tag p, (s.hg.resp.find? fun p => p.who = r && p.tag = tag) = some p →
      ((∀ m, who ≠ .gate m) → Yields (.hedgerowResponse who tag) s fun t => t.hg.resp = s.hg.resp.erase p ∧ t.mem = s.mem ∧
        (who = .debug → ∀ ad, s.dbg.op = some ad → t.dbg.op = none ∧ t.dbg.status = p.status.setWidth 4)) ∧
      (∀ m, who = .gate m → s.netRuns m (s.mea m).live.pers.gateClk = false →
        exec (.hedgerowResponse who tag) s = .next s) ∧
      (∀ m, who = .gate m → s.netRuns m (s.mea m).live.pers.gateClk = true → (s.mea m).gate.outq = [] →
        Yields (.hedgerowResponse who tag) s fun t =>
          t.hg.resp = s.hg.resp.erase p ∧ t.mem = s.mem ∧ (t.mea m).gate = { (s.mea m).gate with
            rsp := some (tag, p.status, p.data), tags := (s.mea m).gate.tags.erase tag
            wtags := if p.status = hsTimeout then (s.mea m).gate.wtags else (s.mea m).gate.wtags.erase tag })) ∧
    (∀ tag, (r, tag) ∈ s.hg.wait → Yields (.hedgerowTimeout who tag) s fun t => t.hg.wait = s.hg.wait.erase (r, tag) ∧
      ({ who := r, tag := tag, status := hsTimeout, data := [] } : HgResp) ∈ t.hg.resp ∧ t.mem = s.mem ∧ t.hbm = s.hbm)

/-- R211 to R214: requests that a gate issues, and requests to a fabric target.
R203, R204: retries on a die-to-die link, its retirement, and the loss of an edge's last link. -/
def Obligations.GateRequestsRun : Prop :=
  (∀ (s : State) (m : MeadowId), let x := s.mea m
    (∀ (q : GateIssue) (a : Asker), s.gateReady m = true → a = s.asker (.gate m) → q.tag.toNat ∉ x.gate.tags → x.gate.tags.length < 64 →
      x.gate.outq = [] →
      -- with ORD = 1 it waits for the gate's earlier writes
      (q.type.toNat ∉ [1, 2, 5, 6] → q.ord = true → x.gate.wtags ≠ [] → Yields (.gateRequestIssue m q) s fun t =>
        (t.mea m).gate = { x.gate with tags := q.tag.toNat :: x.gate.tags, outq := [{ req := q, world := x.world }] } ∧ t.hg = s.hg) ∧
      (q.ord = false ∨ x.gate.wtags = [] →
      (q.type = 1 → s.linesExist (fld q.addr.toNat 0 20) = true → s.heldInHold (fld q.addr.toNat 0 20) = false →
        8 * (q.len.toNat + 1) ≤ 4096 → Yields (.gateRequestIssue m q) s fun t =>
          q.tag.toNat ∈ (t.mea m).gate.tags ∧ ∃ st data, Answers s t a.requester q.tag.toNat st data) ∧
      (q.type = 0 → Yields (.gateRequestIssue m q) s fun t =>
        (t.mea m).gate = { x.gate with tags := q.tag.toNat :: x.gate.tags } ∧ Answers s t a.requester q.tag.toNat hsRange []))) ∧
    (∀ q : GateIssue, q.type ≠ 5 → q.type ≠ 6 → q.tag.toNat ∈ x.gate.tags → exec (.gateRequestIssue m q) s = .next s) ∧
    (∀ who peek write off data be tag, s.alive = true → data.length ≤ 32 → (x.world = true → (s.asker who).world = true) →
      x.gate.isOpen = true → x.live.pers.gateClk ≠ 0 →
      let g : GateReq := {
        who := (s.asker who).requester, tag := tag, write := write, off := BitVec.toNat off, data := data, be := be
        world := (s.asker who).world, peek := peek, last := true }
      Yields (.gateTargetRequest m who peek write off data be tag) s fun t => (g.who, tag) ∈ t.hg.wait ∧
        (t.mea m).gate = (if x.gate.ready then { x.gate with target := x.gate.target ++ [g] }
          else { x.gate with held := x.gate.held ++ [g] })) ∧
    (∀ who peek write off data be tag, s.alive = true → data.length ≤ 32 → x.gate.isOpen = false →
      (x.world = true → (s.asker who).world = true) →
      Yields (.gateTargetRequest m who peek write off data be tag) s fun t =>
        Answers s t (s.asker who).requester tag hsError [] ∧ t.fab = s.fab) ∧
    (∀ who peek write off data be tag, s.alive = true → data.length ≤ 32 → x.world = true → (s.asker who).world = false →
      Yields (.gateTargetRequest m who peek write off data be tag) s fun t => t.fab = s.fab ∧
        Answers s t (s.asker who).requester tag hsDenied (if write then [] else List.replicate data.length 0)) ∧
    (∀ q rest st data, x.gate.target = q :: rest → s.netRuns m x.live.pers.gateClk = true → x.gate.isOpen = true → q.last = true → x.gate.parts = [] →
      (q.late = false → (q.who, q.tag) ∈ s.hg.wait →
        Yields (.gateTargetResponse m st data) s fun t => (t.mea m).gate.target = rest ∧
          Answers s t q.who q.tag st (if q.write then [] else data)) ∧
      (q.late = true → Yields (.gateTargetResponse m st data) s fun t => (t.mea m).gate.target = rest ∧ t.hg = s.hg)) ∧
    (∀ q rest, x.gate.held = q :: rest → x.masked = true → q.late = false → (q.who, q.tag) ∈ s.hg.wait →
      Yields (.gateHeldRequestTimeout m) s fun t => (t.mea m).gate.held.length = rest.length ∧
        (∀ p ∈ (t.mea m).gate.held, p.who = q.who → p.tag = q.tag → p.late = true) ∧ Answers s t q.who q.tag hsTimeout [])) ∧
  (∀ (s : State) (edge : Fin 3) (n : Fin 16), let k := 16 * edge.val + n.val
    let l : HLink := s.hg.link.get {} k
    (l.retired = false → l.retries < 16 → (∀ ok, Yields (.hedgerowLinkRetry edge n ok) s fun t =>
      t.hg.link.get {} k = { l with retries := if ok then 0 else l.retries + 1 } ∧ ∀ j ≠ k, t.hg.link.get {} j = s.hg.link.get {} j)) ∧
    (l.retired = true ∨ 16 ≤ l.retries → ∀ ok, Yields (.hedgerowLinkRetry edge n ok) s fun t =>
      ∀ j, t.hg.link.get {} j = s.hg.link.get {} j) ∧
    (s.alive = true → l.retired = false → 16 ≤ l.retries →
      (Yields (.hedgerowLinkRetire edge n) s fun t =>
        (((∀ i < 16, i ≠ n.val → (s.hg.link.get {} (16 * edge.val + i)).retired = true) → t.pwr.mode = .lockdown) ∧
        (∀ i < 16, i ≠ n.val → (s.hg.link.get {} (16 * edge.val + i)).retired = false → t.pwr.mode = s.pwr.mode ∧
          (t.hg.link.get {} k).retired = true)))) ∧
    (l.retries < 16 → exec (.hedgerowLinkRetire edge n) s = .next s))

/-! ## Flows (13) -/

/-- R267 to R271, R278, R279, R293: the commands of the flow contexts.
R42, R293: the flow actions of a cue that launches. -/
def Obligations.FlowCommandsServed : Prop :=
  (∀ (s : State) (h : HostId) (c : Cmd) (k : Nat) (x : Ctx), k = c.f 0 0 12 →
    (reaches c.world (s.ctx k).world = true → Serves s h 0x0507 (.flowQuery h) c stOk
      ((s.ctx k).fsState :: (List.range 5).map fun i => ((s.ctx k).prm.getD i 0).toNat) (Same s)) ∧
    -- the other commands find what has begun to form by now
    (∀ u, u = s.sdiCatchUp k → x = u.ctx k →
    let others := fun t : State => ∀ j ≠ k, t.ctx j = u.ctx j
    (x.st ≠ .free → reaches c.world x.world = true →
      (x.st = .idle → x.egress = false → Serves s h 0x0503 (.flowEnable h) c stOk [] fun t => others t ∧
        (t.ctx k).st = .restarting ∧ (t.ctx k).frs = [] ∧ (t.ctx k).taken = [] ∧ (t.ctx k).prm = x.prm ∧
        (x.frs.all FrameRec.done = true → t.ctx k = { x.restart with firstFrame := true, prevInt := false })) ∧
      (x.st = .idle → x.egress = true → x.starting = false → Serves s h 0x0503 (.flowEnable h) c stOk [] fun t => others t ∧
        t.ctx k = { x with
          egFrame := if x.kind = 5 then some (s.heathNow (1 + k / 2048) + 2000 * nsU) else u.egStart k, egPkt := 0 }) ∧
      (x.st ≠ .idle ∨ x.starting = true → Serves s h 0x0503 (.flowEnable h) c stIgnored [] (Same u)) ∧
      (x.st = .idle → x.starting = false → Serves s h 0x0504 (.flowDisable h) c stIgnored [] (Same u)) ∧
      (x.st = .idle → Serves s h 0x0505 (.flowRestart h) c stIgnored [] (Same u)) ∧
      (x.st ≠ .idle ∨ x.starting = true → x.egress = true → Serves s h 0x0504 (.flowDisable h) c stOk [] fun t => others t ∧
        t.ctx k = { x with st := .idle, egFrame := none, egPkt := 0 }) ∧
      (x.st ≠ .idle → x.egress = false → Serves s h 0x0504 (.flowDisable h) c stOk [] fun t => others t ∧
        (t.ctx k).st = .idle ∧ (t.ctx k).accepted = x.accepted ∧ (t.ctx k).prm = x.prm) ∧
      (x.st ≠ .idle → x.egress = false → Serves s h 0x0505 (.flowRestart h) c stOk [] fun t => others t ∧ t.ctx k = x.restart) ∧
      (x.st ≠ .idle → x.egress = true → Serves s h 0x0505 (.flowRestart h) c stOk [] fun t => others t ∧
        (t.ctx k).st = .restarting ∧ (t.ctx k).egPkt = 0 ∧
        (t.ctx k).egFrame = if x.egPkt = 0 then x.egFrame else x.egFrame.map (· + 1)) ∧
      (x.egress = true → (∀ b, u.buf (c.f 1 0 20) = some b → reaches c.world b.world = true ∧ b.isStore = false) →
        Serves s h 0x0506 (.flowSourceSwitch h) c stOk [] fun t => others t ∧
          t.ctx k = { x with srcNext := some (c.f 1 0 20) }) ∧
      (∀ b, x.egress = true → u.buf (c.f 1 0 20) = some b → reaches c.world b.world = false →
        Serves s h 0x0506 (.flowSourceSwitch h) c stDenied [] fun t => t.net = u.net) ∧
      ((s.mb h).running = some c → c.code = 0x0506 → x.egress = false → Yields (.flowSourceSwitch h) s fun t =>
        Same u t ∧ Gave t h c stBadArg 8 []) ∧
      ((s.mb h).running = some c → c.code = 0x0502 → Yields (.flowDelete h) s fun t => others t ∧ (t.mb h).running = none ∧
        (t.ctx k).st = .free ∧ (∃ n, Gave t h c stOk 0 [n]) ∧ (t.ctx k).prm = []))) ∧
    (∀ u bytes y j, readBlock s h c 1 152 = (u, .ok bytes) →
      y = ({ st := .idle, world := c.world, prm := words64 bytes 19, creator := h.val } : Ctx) → y.egress = false →
      y.blockFault u (c.f 0 0 2) = none → y.reach u = true →
      (((List.range 1024).map (1024 * c.f 0 0 2 + ·)).find? fun i => decide ((u.ctx i).st = .free)) = some j →
      (u.hasRoom (c.f 0 0 2) y = true → Serves s h 0x0501 (.flowCreate h) c stOk [j] fun t => t.ctx j = y ∧
        ∀ i ≠ j, t.ctx i = s.ctx i) ∧
      (u.hasRoom (c.f 0 0 2) y = false → Serves s h 0x0501 (.flowCreate h) c stNoResource [] fun t => t.net = s.net))) ∧
  (∀ (s u : State) (k : CueKey) (n : Nat) (x : Ctx), n = (s.cue k).target → u = s.sdiCatchUp n → x = u.ctx n →
    s.pwr.mode ≠ .hold →
    (lastLaunch s k 0x0201 → Yields (.cueFlowSourceSwitch k) s fun t => launchedOnce s t k ∧
      t.ctx n = { x with srcNext := some ((s.cue k).arg % 2 ^ 20) } ∧ ∀ j ≠ n, t.ctx j = u.ctx j) ∧
    (lastLaunch s k 0x0202 → x.st = .idle → x.egress = false → x.frs.all FrameRec.done = true →
      Yields (.cueFlowEnable k) s fun t => launchedOnce s t k ∧
        t.ctx n = { x.restart with firstFrame := true, prevInt := false } ∧ ∀ j ≠ n, t.ctx j = u.ctx j) ∧
    (lastLaunch s k 0x0203 → x.st = .active → x.egress = true → Yields (.cueFlowDisable k) s fun t => launchedOnce s t k ∧
      t.ctx n = { x with st := .idle, egFrame := none, egPkt := 0 } ∧ ∀ j ≠ n, t.ctx j = u.ctx j))

/-- R271 to R277, R286, R429: what a packet, a wait and the loss of a path do to an ingress context. -/
def Obligations.IngressRuns : Prop :=
  ∀ s : State,
    (∀ (b : BlockId) (p : Fin 8) (k : Packet), let y := s.port (8 * b.val + p.val)
      (y.en = false → exec (.ingressPacket b p k) s = .next s) ∧
      (y.en = true → s.netHeld = true ∨ (s.netUp = true ∧ s.overRate b p = true) → Yields (.ingressPacket b p k) s fun t =>
        t.port (8 * b.val + p.val) = { y with refused := y.refused + 1 } ∧ t.net.ctx = s.net.ctx) ∧
      (y.en = true → s.netHeld = false → s.netUp = true → s.overRate b p = false → (k.ipUdp = false ∨ s.matchCtx b p k = none) →
        Yields (.ingressPacket b p k) s fun t => t.net.ctx = s.net.ctx ∧ t.port (8 * b.val + p.val) =
          { y with unmatched := satInc y.unmatched, seen := (s.tl.up, wireOct k) :: s.lately (8 * b.val + p.val) }) ∧
      (∀ c q x u, y.en = true → s.netHeld = false → s.netUp = true → s.overRate b p = false → k.ipUdp = true →
        u = s.noteFrame (8 * b.val + p.val) (wireOct k) → u.matchCtx b p k = some (c, q) → x = s.ctx c →
        (x.srcOk k q = false ∨ x.rtpOk k = false → Yields (.ingressPacket b p k) s fun t =>
          t = u.setCtx c { x with invalid := satInc x.invalid }) ∧
        (x.srcOk k q = true → x.rtpOk k = true → x.st = .active → x.formed? k.body = true →
          let d := seqDist (x.extSeq k) x.mPt
          (0 < d → d < 2 ^ 24 → x.taken.contains (x.extSeq k) = false → Yields (.ingressPacket b p k) s fun t =>
            (t.ctx c).accepted = satInc x.accepted ∧ (t.ctx c).duplicate = x.duplicate ∧ (t.ctx c).late = x.late ∧
            (t.ctx c).st = .active ∧ (∀ j ≠ c, t.ctx j = s.ctx j) ∧ t.net.port = u.net.port) ∧
          (-(2 ^ 24) ≤ d → d ≤ 0 → inRuns x.lost (x.extSeq k) = false → Yields (.ingressPacket b p k) s fun t =>
            (t.ctx c).duplicate = satInc x.duplicate ∧ (t.ctx c).accepted = x.accepted ∧ (t.ctx c).mPt = x.mPt ∧
            t.mem = s.mem ∧ t.hbm = s.hbm) ∧
          (-(2 ^ 24) ≤ d → d ≤ 0 → inRuns x.lost (x.extSeq k) = true → Yields (.ingressPacket b p k) s fun t =>
            (t.ctx c).late = satInc x.late ∧ (t.ctx c).accepted = x.accepted ∧ (t.ctx c).mPt = x.mPt ∧
            t.mem = s.mem ∧ t.hbm = s.hbm) ∧
          (2 ^ 24 ≤ d ∨ d < -(2 ^ 24) → Yields (.ingressPacket b p k) s fun t =>
            (t.ctx c).st = .restarting ∧ (t.ctx c).invalid = satInc x.invalid ∧ t.mem = s.mem ∧ t.hbm = s.hbm)))) ∧
    (∀ (c : CtxId) upTo x h r rs, x = s.ctx c → s.netUp = true → x.taken.getLast? = some h → upTo < 2 ^ 32 →
      0 < seqDist h upTo → 0 < seqDist upTo x.mPt → gaps x.mPt upTo x.taken = r :: rs →
      Yields (.mergeWaitExpiry c upTo) s fun t => (t.ctx c).lostCount = satAdd x.lostCount ((r :: rs).map (·.2)).sum ∧
        (t.ctx c).accepted = x.accepted) ∧
    (∀ (c : CtxId) pathB x, x = s.ctx c → s.netUp = true → (if pathB then x.upB else x.upA) = true →
      Yields (.pathLossTimeout c pathB) s fun t => (t.ctx c = if pathB then { x with upB := false, downsB := satInc x.downsB }
        else { x with upA := false, downsA := satInc x.downsA }) ∧ ∀ j, j ≠ c.val → t.ctx j = s.ctx j) ∧
    (∀ (c : CtxId) x w rest i q, x = s.ctx c → s.netUp = true → x.wait = w :: rest → q = x.descQ →
      (s.queue q).slotOf (srcCode 1 (c.val / 1024)) = some i → ((s.queue q).slot i).due < ((s.queue q).slot i).held →
      s.qCol q = .on → (s.mea (q / 512)).gate.isOpen = true → reaches x.world (s.qWorld q) = true →
      Yields (.descriptorPush c) s fun t => t.ctx c = { x with wait := rest } ∧
        t.queue q = (s.queue q).push i x.descPrio (s.qData q w) ∧ ∀ r ≠ q, t.queue r = s.queue r)

/-- R288, R289, R293: an egress context forms its next packet from two microseconds before it is due, and sends it when it is
due. -/
def Obligations.EgressRuns : Prop :=
  ∀ (s : State) (c : CtxId) (x : Ctx), x = s.ctx c → s.netUp = true →
    (∀ f due, s.netHeld = false → x.egress = true → x.kind ≠ 5 → x.st = .active ∨ x.st = .restarting ∨ x.starting = true →
      x.egFrame = some f → due ≤ s.heathNow (1 + c / 2048) + 2000 * nsU →
      (x.egPkt ≠ 0 → s.egDue c = some due → Yields (.egressPacketForm c) s fun t =>
        (∃ p, (t.ctx c).formed = x.formed ++ [p] ∧ p.due = due) ∧ (t.ctx c).seq = x.seq ∧ (t.ctx c).src = x.src ∧
        (∀ j, j ≠ c.val → t.ctx j = s.ctx j) ∧ t.net.port = s.net.port) ∧
      (∀ g, x.egPkt = 0 → x.isAudio = false → s.tl.grids.get none x.gridNo = some g →
        due = (g.frameTime f).toNat + x.tro * nsU → Yields (.egressPacketForm c) s fun t =>
        (∃ p, (t.ctx c).formed = x.formed ++ [p]) ∧ (t.ctx c).seq = x.seq ∧ (t.ctx c).src = x.srcNext.getD x.src ∧
        (t.ctx c).srcNext = none ∧ (t.ctx c).st = .active ∧ (t.ctx c).frames = x.frames + 1)) ∧
    (∀ p rest, x.formed = p :: rest →
      let mac := (s.net.blk.get {} (c / 1024)).mac
      let a := s.pathUp c false
      let b := s.pathUp c true
      (p.due ≤ s.heathNow (1 + c / 2048) → Yields (.egressPacketSend c) s fun t =>
        t.out = s.out ++ (if a then [.packet c 0 p.due (x.sent mac false p)] else []) ++
          (if b then [.packet c 1 p.due (x.sent mac true p)] else []) ∧
        t.ctx c = { x with
          formed := rest, seq := x.seq + 1, accepted := if a || b then satInc x.accepted else x.accepted
          done := if p.whole && (a || b) then satInc x.done else x.done } ∧
        ∀ j, j ≠ c.val → t.ctx j = s.ctx j) ∧
      (s.heathNow (1 + c / 2048) < p.due → exec (.egressPacketSend c) s = .next s))

/-! ## Lanes, ports, SDI (14) -/

/-- R300, R302, R304, R309, R311, R315: the commands of lanes, Ethernet ports and SDI ports. -/
def Obligations.LaneAndPortCommandsServed : Prop :=
  ∀ (s : State) (h : HostId) (c : Cmd),
    (∀ l, l = c.f 0 0 7 →
      Serves s h 0x050B (.laneConfigure h) c stOk [] (fun t => (t.lane l).txPol = decide (c.f 0 7 1 = 1) ∧
        (t.lane l).taps = (if s.laneTrains l then (s.lane l).taps
          else BitVec.ofNat 35 (pack ((List.range 5).map fun k => (c.f 1 (8 * k) 7, 7 * k)))) ∧ ∀ j ≠ l, t.lane j = s.lane j) ∧
      (s.laneTurn l = some stNotReady → Serves s h 0x0A03 (.laneCalibrate h) c stNotReady [] (Same s)) ∧
      (s.laneTurn l = some stBusy → Serves s h 0x0A03 (.laneCalibrate h) c stBusy [] (Same s)) ∧
      ((s.mb h).running = some c → c.code = 0x0A03 → s.laneTurn l = none → Yields (.laneCalibrate h) s fun t =>
        t = s.setLane l { s.lane l with jobs := (s.lane l).jobs ++ [(c.bg h, false, false)] }) ∧
      (s.laneTurn l = none ∨ s.laneTurn l = some stQueued → patternFits (s.lane l).pam4 (c.f 0 8 4) = true →
        Serves s h 0x0A04 (.laneSelftest h) c stQueued [] fun t =>
          t.lane l = { s.lane l with jobs := (s.lane l).jobs ++ [(c.bg h, true, true)] } ∧ c.bg h ∈ t.wrd.bg)) ∧
    (∀ b m, b = c.f 0 0 2 → m = c.f 0 4 2 → (∀ p < 8, (s.port (8 * b + p)).en = false) → s.ctxsOf b = [] →
      Serves s h 0x0508 (.portBlockSet h) c stOk [] fun t => t.net.blk.get {} b = { mode := some m, mac := BitVec.ofNat 48 (c.f 1 0 48) } ∧
        t.net.port = s.net.port ∧ t.net.ctx = s.net.ctx ∧ ∀ i < 8, (t.lane (ethLane b i)).pam4 = decide (m ≠ 3)) ∧
    (∀ b m p, b = c.f 0 0 2 → p = c.f 0 4 3 → s.blkMode b = some m → p < modePorts m → let y := s.port (8 * b + p)
      (c.f 0 8 1 = 1 → y.en = true → Serves s h 0x0509 (.portEnable h) c stIgnored [] (Same s)) ∧
      (c.f 0 8 1 = 1 → y.en = false → (∀ i ∈ modeLanes m p, s.laneBusy (ethLane b i) = false) →
        Serves s h 0x0509 (.portEnable h) c stOk [] fun t => t.port (8 * b + p) = { y with en := true } ∧
          ∀ j ≠ 8 * b + p, t.port j = s.port j) ∧
      (c.f 0 8 1 = 0 → y.en = true → Serves s h 0x0509 (.portDisable h) c stOk [] fun t =>
        (t.port (8 * b + p)).en = false ∧ (t.port (8 * b + p)).up = false ∧ (t.port (8 * b + p)).lock = false ∧
        (t.port (8 * b + p)).downs = (if y.up then satInc y.downs else y.downs) ∧ ∀ j ≠ 8 * b + p, t.port j = s.port j)) ∧
    (∀ j, j = c.f 0 0 5 → s.sdiCtx j = none → c.f 0 5 1 = 0 →
      Serves s h 0x050A (.sdiPortSet h) c stOk [] fun t => (t.sdi j).out = false ∧ (t.sdi j).auto = decide (c.f 0 6 1 = 1) ∧
        (t.sdi j).std = BitVec.ofNat 3 (c.f 0 8 3) ∧ (t.sdi j).carrier = false ∧ ∀ i ≠ j, t.sdi i = s.sdi i) ∧
    (∀ j, j = c.f 0 0 5 → (s.sdiCtx j).isSome = true → Serves s h 0x050A (.sdiPortSet h) c stBusy [] (Same s))

/-- R302 to R307, R310, R311, R313, R314: what happens on lanes, Ethernet links and SDI ports. -/
def Obligations.LaneAndPortHappenings : Prop :=
  ∀ s : State,
    (∀ (l : LaneId) ok eye b q rest, s.startCal l = false → (s.lane l).jobs = (b, false, q) :: rest →
      Yields (.laneCalibrationDone l ok eye) s fun t =>
        t.lane l = { s.lane l with jobs := rest, eye := eye, st := if ok && s.laneRails then .ready else .failed }) ∧
    (∀ (l : LaneId) ok eye (h : HostId) c rest, s.startCal l = false → (s.mb h).running = some c →
      (s.lane l).jobs = (c.bg h, false, false) :: rest → Yields (.laneCalibrationDone l ok eye) s fun t =>
        (t.mb h).running = none ∧ Gave t h c (if ok && s.laneRails then stOk else stFailed) 0 []) ∧
    (∀ (l : LaneId) bits errors eye b q rest, s.startCal l = false → (s.lane l).jobs = (b, true, q) :: rest →
      Yields (.laneSelftestDone l bits errors eye) s fun t => t.lane l = { s.lane l with jobs := rest, eye := eye }) ∧
    (∀ failed : List LaneId, s.pwr.laneCal = false → s.netUp = true →
      Yields (.startupLaneCalDone failed) s fun t => t.pwr.laneCal = true ∧
        (∀ l : LaneId, lanePcie l = none → s.refReady l = true → (t.lane l).st = if l ∈ failed ∨ s.laneRails = false then .failed else .ready) ∧
        ∀ l : LaneId, (lanePcie l).isSome = true → t.lane l = s.lane l) ∧
    (∀ l : LaneId, (s.lane l).signal = true → Yields (.laneLossOfSignal l) s fun t =>
      t.lane l = { s.lane l with signal := false, los := satInc (s.lane l).los } ∧ (∀ j, j ≠ l.val → t.lane j = s.lane j) ∧
      ∀ b i m, laneEth l = some (b, i) → s.blkMode b = some m → (t.port (8 * b + modePort m i)).up = false) ∧
    -- no signal comes back on a lane in use: a failure to lock
    (∀ l : LaneId, (s.lane l).signal = false → s.laneUsed l = false → exec (.laneLossOfSignal l) s = .next s) ∧
    (∀ (l : LaneId) inv, s.laneRails = true → (s.lane l).signal = false → Yields (.laneSignalReturn l inv) s fun t =>
      t = s.setLane l { s.lane l with signal := true, polInv := inv && (laneSdi l).isNone }) ∧
    (∀ (b : BlockId) (p : Fin 8), let k := 8 * b.val + p.val
      let y := s.port k
      (∀ hi, y.up = true → Yields (.ethLinkDown b p hi) s fun t =>
        t.port k = { y with up := false, lock := hi, hiBer := hi, downs := satInc y.downs } ∧ ∀ j ≠ k, t.port j = s.port j) ∧
      (∀ fec m, s.blkMode b = some m → m ≠ 3 ∨ fec ≠ 3 → y.en = true → y.up = false → p.val < modePorts m →
        (∀ i ∈ modeLanes m p, (s.lane (ethLane b i)).signal = true ∧ s.laneBusy (ethLane b i) = false) → Yields (.ethLinkUp b p fec) s fun t =>
          (t.port k).up = true ∧ (t.port k).lock = true ∧ (t.port k).fec = (if m = 3 then fec else 3) ∧
          (t.port k).downs = y.downs ∧ ∀ j ≠ k, t.port j = s.port j) ∧
      -- the FEC's codewords count whatever becomes of the frame; `z` is the port with them counted, `u` the state with it
      (∀ (fr : Frame) z u, y.en = true → y.up = true → s.alive = true →
        z = { y with fecCorr := satAdd y.fecCorr fr.corr, fecUncorr := satAdd y.fecUncorr fr.uncorr } → u = s.setPort k z →
        (fr.fcsOk = false → Yields (.ethernetFrameReceive b p fr) s fun t => t.port k = { z with fcs := satInc y.fcs } ∧
          (∀ j ≠ k, t.port j = s.port j) ∧ t.out = s.out) ∧
        (fr.fcsOk = true → fr.length < 64 ∨ 9216 < fr.length ∨ fr.pause = true ∨ u.macTakes k fr.dst = false →
          exec (.ethernetFrameReceive b p fr) s = .next u) ∧
        (fr.fcsOk = true → 64 ≤ fr.length → fr.length ≤ 9216 → fr.pause = false → u.macTakes k fr.dst = true →
          -- what is not for the warden goes to the engine, as INGRESS_PACKET
          (fr.forWarden = false → fr.query = false → exec (.ethernetFrameReceive b p fr) s = .next u) ∧
          (fr.forWarden = true ∨ fr.query = true → u.overRate b p = true →
            Yields (.ethernetFrameReceive b p fr) s fun t => t.port k = { z with refused := y.refused + 1 } ∧
              (∀ j ≠ k, t.port j = s.port j) ∧ t.out = s.out) ∧
          (fr.forWarden = true ∨ fr.query = true → u.overRate b p = false →
            Yields (.ethernetFrameReceive b p fr) s fun t =>
              t.port k = { z with seen := (s.tl.up, fr.length + 20) :: u.lately k } ∧ (∀ j ≠ k, t.port j = s.port j) ∧
              (fr.query = false → t.out = s.out)))) ∧
      -- the port's own address, and broadcast, pass its filter
      (∀ d : BitVec 48, d = (s.net.blk.get {} b).mac + BitVec.ofNat 48 p ∨ d = BitVec.allOnes 48 → s.macTakes k d = true)) ∧
    (∀ (j : SdiId) std frac, s.netUp = true → s.laneRails = true → (s.sdi j).out = false → std ≠ 0 → std ≠ 7 → (s.sdi j).auto = true ∨ (s.sdi j).std = std →
      -- a change of standard under automatic detection: the framer relocks first
      ((s.sdi j).auto = true → (s.sdi j).aligned = true → (s.sdi j).detStd ≠ std → Yields (.sdiInputLock j std frac) s fun t =>
        t.sdi j = { s.sdi j with carrier := false, aligned := false } ∧ ∀ i, i ≠ j.val → t.sdi i = s.sdi i) ∧
      ((s.sdi j).auto = false ∨ (s.sdi j).aligned = false ∨ (s.sdi j).detStd = std → Yields (.sdiInputLock j std frac) s fun t =>
        (t.sdi j).carrier = decide (std ≠ 4) ∧ (t.sdi j).aligned = true ∧ (t.sdi j).detStd = std ∧
        (t.sdi j).frac = frac ∧ (t.lane (sdiLane j)).signal = true ∧ ∀ i, i ≠ j.val → t.sdi i = s.sdi i)) ∧
    (∀ (j : SdiId) (ln : SdiLine), s.netUp = true → (s.sdi j).out = false → (s.sdi j).aligned = true → s.sdiCtx j = none →
      Yields (.sdiInputLine j ln) s fun t => (t.sdi j).ppm = ln.ppm ∧ (t.sdi j).anc = satAdd (s.sdi j).anc ln.badAnc ∧
        (t.sdi j).trs = (if ln.trsOk then (s.sdi j).trs else satInc (s.sdi j).trs) ∧ t.net.ctx = s.net.ctx ∧
        ∀ i, i ≠ j.val → t.sdi i = s.sdi i) ∧
    (∀ (j : SdiId) x cur g, x = s.sdi j → s.sdiRuns j = true → x.cur = some cur → x.next = none →
      s.tl.grids.get none x.grid = some g → x.line + 1 < (sdiActive x.fmt.toNat).2 → x.line < sdiLines x.fmt.toNat →
      sdiAt g x.fmt.toNat cur x.line ≤ s.heathNow (j / 8) →
      s.sdiCtx j = none → s.laneBusy (sdiLane j) = false → Yields (.sdiOutputLine j) s fun t => (t.sdi j).line = x.line + 1 ∧
        t.out = s.out ++ [.sdi j (x.sent (x.line + 1) none (x.ahead.getD []))] ∧ ∀ i, i ≠ j.val → t.sdi i = s.sdi i)

/-! ## Resets, LOCKDOWN, rails, start-up, modes (20, 21) -/

/-- What every reset that is not a debug-domain reset leaves: BOOT, the mailboxes and the fabric empty, the hold asserted, the
fuses, the user flash and the model's own fields as they were. What the always-on domain keeps of the lanes of the PCIe quads and
of the clock monitor over a device reset (R419) is said beside it. -/
def afterAnyReset (s t : State) : Prop :=
  t.pwr.mode = .boot ∧ t.pwr.ghold = true ∧ t.fab = {} ∧ t.que = {} ∧ t.stp = {} ∧ t.net = { lane := t.net.lane } ∧
    (∀ l, lanePcie l = none → t.lane l = {}) ∧ t.pool = {} ∧ t.hbm = {} ∧ t.mem = {} ∧
    t.clk = { ready := t.clk.ready, dead := t.clk.dead, gone := t.clk.gone } ∧ (∀ h, (t.mb h).expect = 0 ∧ (t.mb h).done = 0xFFFFFFFF ∧ (t.mb h).running = none) ∧
    t.sec.life = s.sec.life ∧ t.sec.keyRam = s.sec.keyRam ∧ t.sec.chal = none ∧ t.sec.unlocked = false ∧ t.ldr.job = none ∧
    t.pending = s.pending ∧ t.out = s.out ∧ (s.io.ufOp = none → t.io.uf = s.io.uf)

/-- R421 to R426, R429: the sources of power-on and device reset, their cause, what they reset; that LOCKDOWN ignores every source
of device reset, and that one which comes during HOLD entry waits for HOLD. -/
def Obligations.ResetsRun : Prop :=
  ∀ s : State,
    let device := fun (i : Instr) (cause : BitVec 8) =>
      (s.alive = true → s.pwr.entering = none → Yields i s fun t => afterAnyReset s t ∧ t.pwr.cause = cause ∧ t.tl.now = s.tl.now ∧ t.pcie = s.pcie ∧
        t.pwr.straps = s.pwr.straps ∧ t.pwr.owner = s.pwr.owner ∧ t.sec.fails = s.sec.fails ∧
        (∀ l < 96, (lanePcie l).isSome = true → t.lane l = { s.lane l with los := 0, jobs := [] }) ∧
        ∀ c, rng c 1 4 = true ∨ rng c 0x10 0x1B = true → t.clk.ready.get false c = s.clk.ready.get false c) ∧
      (s.alive = true → s.pwr.entering.isSome = true → Yields i s fun t =>
        t = { s with pwr := { s.pwr with lateReset := some (s.pwr.lateReset.getD cause) } }) ∧
      (s.alive = false → exec i s = .next s)
    device .cfgProgNLow 2 ∧
    (s.wrd.resetDue = true → device .delayedDeviceReset 3) ∧
    (s.wrd.resetDue = false → exec .delayedDeviceReset s = .next s) ∧
    (s.pwr.mode ≠ .service → s.wrd.halted = false → device .wardenWatchdogExpiry 5) ∧
    (s.pwr.mode = .service ∨ s.wrd.halted = true → exec .wardenWatchdogExpiry s = .next s) ∧
    (∀ r, r = .core ∨ r = .hbm ∨ r = .hbmq ∨ r = .vpp → r ∉ s.pwr.down →
      (s.alive = true → s.pwr.lockPend = false → s.pwr.entering = none → Yields (.railFail r) s fun t =>
        afterAnyReset s t ∧ t.pwr.cause = 4 ∧ t.tl.now = s.tl.now ∧ r ∈ t.pwr.down) ∧
      -- a LOCKDOWN entry that waits for VCC_CORE ends as power loss does
      (s.pwr.lockPend = true → Yields (.railFail r) s fun t => afterAnyReset s t ∧ t.pwr.cause = 1 ∧ r ∈ t.pwr.down)) ∧
    (RailId.aon ∉ s.pwr.down → RailId.aux ∉ s.pwr.down → Yields .powerOnReset s fun t => afterAnyReset s t ∧ t.pwr.cause = 1 ∧
      t.tl.now = 0 ∧ t.pcie = {} ∧ t.clk = {} ∧ t.net = {} ∧ t.pwr.straps = s.pwr.pins ∧ t.pwr.owner = s.sec.ownerOf s.pwr.pins ∧ t.sec.fails = 0) ∧
    (RailId.dbg ∉ s.pwr.down →
      (s.pwr.loadWait = false ∨ s.pwr.mode ≠ .load → Yields .debugPowerOnReset s fun t => t = { s with dbg := {} }) ∧
      -- a load that a boundary-scan test holds up starts
      (s.pwr.loadWait = true → s.pwr.mode = .load → Yields .debugPowerOnReset s fun t => t.dbg = {} ∧ t.pwr.loadWait = false ∧
        (s.pwr.straps.cfgSrc = 0 → t.ldr.job = some { src := .flash })))

/-- What the core-domain steps of LOCKDOWN leave (R450, R452): the world attributes stay (R437). -/
def coreLocked (s t : State) : Prop :=
  t.pwr.lockPend = false ∧ t.pwr.ghold = true ∧ t.wrd.alertForced = true ∧ t.que = { world := s.que.world } ∧
    t.stp = { row := worldsOnly s.stp.row } ∧ t.tl.cues = {} ∧ t.net.ctx = {} ∧ t.mem.pad = {} ∧ t.mem.padOff = true ∧
    (∀ m < 192, (t.mea m).live = {} ∧ (t.mea m).under = {} ∧ (t.mea m).gate.isOpen = false ∧ (t.mea m).world = (s.mea m).world) ∧
    (∀ r < 256, (t.region r).zeroed = true) ∧ ∀ h < 5, (t.mb h).running = none ∧ (t.mb h).accepted = []

/-- R448 to R450, R506: an alarm that is armed, or a fatal failure, enters LOCKDOWN with its cause; at once out of HOLD,
with its core-domain steps once VCC_CORE is good in HOLD.
R448: an alarm that TAMPER_EN or the lifecycle state does not arm, and any alarm in LOCKDOWN, changes nothing. -/
def Obligations.LockdownEntered : Prop :=
  ((∀ (s : State) (i : Instr) (cause : BitVec 8), s.alive = true →
    let bit? := match i with
      | .tamperNAlarm => some 0 | .supplyGlitchAlarm _ => some 1 | .dieOvertempAlarm _ => some 2 | _ => none
    let armed := s.sec.life = .sealed ∨ s.sec.life = .returned
    (i = .fastOscStop ∧ cause = 4) ∨ (∃ b, bit? = some b ∧ armed ∧ s.sec.tamperEn.getLsbD b = true ∧ cause = 1) →
    (s.pwr.mode ≠ .hold → s.pwr.entering = none → Yields i s fun t => t.pwr.mode = .lockdown ∧ t.pwr.lockCause = cause ∧
      t.sec.keyRam = none ∧ t.sec.chal = none ∧ t.dbg.key = none ∧ coreLocked s t) ∧
    (s.pwr.mode = .hold → Yields i s fun t => t.pwr.mode = .lockdown ∧ t.pwr.lockCause = cause ∧ t.pwr.lockPend = true ∧
      t.sec.keyRam = none ∧ t.dbg.key = none ∧ t.fab = s.fab ∧ t.que = s.que ∧ t.stp = s.stp)) ∧
  ∀ s : State,
    (s.pwr.lockPend = true → s.pwr.coreLow = false → RailId.core ∉ s.pwr.down → Yields .lockdownCoreSteps s fun t =>
      coreLocked s t ∧ t.pwr.mode = s.pwr.mode ∧ t.pwr.lockCause = s.pwr.lockCause ∧ t.sec = s.sec) ∧
    (s.pwr.lockPend = false ∨ s.pwr.coreLow = true ∨ RailId.core ∈ s.pwr.down → exec .lockdownCoreSteps s = .next s)) ∧
  (∀ s : State,
    let armed := fun b => (s.sec.life = .sealed ∨ s.sec.life = .returned) ∧ s.sec.tamperEn.getLsbD b = true ∧ s.alive = true
    (¬ armed 0 → exec .tamperNAlarm s = .next s) ∧
    (¬ armed 1 → ∀ c, exec (.supplyGlitchAlarm c) s = .next s) ∧
    (¬ armed 2 → ∀ h, exec (.dieOvertempAlarm h) s = .next s) ∧
    (s.alive = false → exec .fastOscStop s = .next s))

/-- R418, R420, R434, R105, R239, R305, R424, R473: rails, and the steps of start-up. -/
def Obligations.StartUpRuns : Prop :=
  ∀ s : State,
    (∀ r, (∀ b, r ≠ .vccio b) → r ≠ .core → r ≠ .vbat → Yields (.railGood r) s fun t =>
      (r ≠ .lane → r ≠ .laneTx → t = { s with pwr := { s.pwr with down := s.pwr.down.filter (· ≠ r) } }) ∧
      -- SDI outputs start anew with the rails of the lanes
      t = { s with pwr := { s.pwr with down := s.pwr.down.filter (· ≠ r) }, net := { s.net with sdi := t.net.sdi } }) ∧
    (Yields (.railGood .core) s fun t => RailId.core ∉ t.pwr.down ∧ t.pwr.coreLow = (s.pwr.retReq && s.pwr.coreLow)) ∧
    (Yields (.railGood .vbat) s fun t => t.sec.vbat = true ∧ t.sec.keyRam = s.sec.keyRam) ∧
    (∀ r, r ∈ s.pwr.down → exec (.railFail r) s = .next s) ∧
    (RailId.vbat ∉ s.pwr.down → Yields (.railFail .vbat) s fun t => t.sec.keyRam = none ∧ t.sec.efuse = s.sec.efuse) ∧
    (∀ b, RailId.vccio b ∉ s.pwr.down → Yields (.railFail (.vccio b)) s fun t => t.io = s.io ∧
      RailId.vccio b ∈ t.pwr.down ∧ ∀ m, t.mea m = { s.mea m with ffs := (t.mea m).ffs }) ∧
    (Yields .vbatLow s fun t => t = { s with sec := { s.sec with vbat := false, keyRam := none } }) ∧
    (s.mem.wiping = true → s.alive = true → s.pwr.mode = .boot → s.powerGood = true →
      -- a lifecycle word that reads back as no defined state is fatal
      (s.sec.badWord = true → s.pwr.entering = none → Yields (.scratchpadWipeDone false) s fun t => t.pwr.mode = .lockdown ∧
        t.pwr.lockCause = 4) ∧
      (s.sec.badWord = false → Yields (.scratchpadWipeDone false) s fun t => t.mem.wiping = false ∧ t.wrd.boot = none ∧ t.pwr.mode = .boot ∧
        t.sec.life = s.sec.fused.getD s.sec.life ∧ t.pwr.straps.cfgSrc = s.pwr.pins.cfgSrc) ∧
      (s.pwr.entering = none → Yields (.scratchpadWipeDone true) s fun t => t.pwr.mode = .lockdown ∧ t.pwr.lockCause = 2)) ∧
    (s.pwr.mode = .boot → s.mem.wiping = false → s.clk.locked = false → s.clk.coast = false → Yields .rootLoopLock s fun t =>
      t.clk.locked = true ∧ t.clk.ref = (if s.srcReady 3 then 3 else if s.srcReady 4 then 4 else 1) ∧ t.pwr = s.pwr) ∧
    (∀ edge : Fin 3, s.pwr.mode = .boot → s.mem.wiping = false → s.clk.locked = true → s.pwr.edges.length = edge.val →
      Yields (.dieEdgeTrained edge true) s fun t => t.pwr.edges = s.pwr.edges ++ [edge.val] ∧ t.tl.skew.get 0 (edge.val + 1) = 0) ∧
    (∀ failed spares, s.pwr.mode = .boot → s.pwr.edges.length = 3 → Yields (.hbmTrainingDone failed spares) s fun t =>
      t.pwr.mode = .load ∧ (∀ p : ChanId, (t.pch p).st = if p ∈ failed then .failed else .active) ∧
      (s.testing = true → t.pwr.loadWait = true ∧ t.ldr.job = s.ldr.job) ∧
      (s.testing = false → s.pwr.straps.cfgSrc = 1 → t.ldr.job = s.ldr.job) ∧
      (s.testing = false → s.pwr.straps.cfgSrc = 0 → t.ldr.job = some { src := .flash })) ∧
    (s.running = true → s.pwr.fabClk = true → Yields .fabricResetRelease s fun t => (∀ m < 192,
      (t.mea m).frst = ((s.mea m).swapped && (s.mea m).frst)) ∧ t.que = s.que)

/-- R428 to R433: MODE_SET, the entry into HOLD, the wakes and the exit. -/
def Obligations.HoldEnteredAndLeft : Prop :=
  ∀ s : State,
    (∀ (h : HostId) c, s.pwr.entering = none → c.f 0 0 3 = 3 →
      (s.pwr.mode = .run → (∀ t, c.wakeTime = some t → s.usFrom 2500 ≤ t) → (∀ t ∈ s.stoppedCues, s.usFrom 2500 ≤ t) → s.wrd.bg = [] →
        Serves s h 0x0901 (.modeSetHold h) c stQueued [] fun t => t.pwr.entering = some (c.bg h) ∧ t.pwr.mode = .run ∧
          ∀ w, c.wakeTime = some w → w - 1500 * 1000 * nsU ∈ t.pwr.wakes) ∧
      (∀ t, s.pwr.mode = .run → c.wakeTime = some t → t < s.usFrom 2500 → Serves s h 0x0901 (.modeSetHold h) c stLate [] (Same s)) ∧
      (s.pwr.mode = .hold → Serves s h 0x0901 (.modeSetHold h) c stIgnored [] (Same s))) ∧
    (∀ (h : HostId) c, s.pwr.entering = none → c.f 0 0 3 = 2 →
      (s.pwr.mode = .run → Serves s h 0x0901 (.modeSetRun h) c stIgnored [] (Same s)) ∧
      (s.pwr.mode = .hold → c.arg 1 = 0 → c.arg 2 = 0 → Serves s h 0x0901 (.modeSetRun h) c stQueued [] fun t =>
        t.pwr.exiting = true ∧ t.pwr.retReq = false ∧ t.pwr.wakeCmds = s.pwr.wakeCmds ++ [c.bg h])) ∧
    (∀ b, s.pwr.entering = some b → s.pwr.mode = .run → s.alive = true → s.pwr.wakeN = false → s.pwr.lateReset = none → (∀ e ∈ s.net.ctx.ents, e.2.formed = []) →
      Yields .holdEntryComplete s fun t => t.pwr.mode = .hold ∧ t.pwr.entering = none ∧ t.pwr.retReq = true ∧
        (∀ m < 192, (t.mea m).gate.ready = false ∧ (t.mea m).live = (s.mea m).live ∧
          (t.mea m).col = if (s.mea m).col = .on then .retention else (s.mea m).col) ∧
        ∀ p < 32, (t.pch p).st = if (s.pch p).st = .active then .selfRefresh else (s.pch p).st) ∧
    (∀ w ∈ s.pwr.wakes, s.pwr.mode = .hold → w ≤ s.tl.now → Yields .holdWakeTimer s fun t => t.pwr.exiting = true ∧
      t.pwr.retReq = false ∧ w ∉ t.pwr.wakes) ∧
    (s.pwr.entering = none → s.pwr.mode = .hold → Yields .holdWakeNLow s fun t => t.pwr.exiting = true ∧ t.pwr.retReq = false ∧
      t.pwr.mode = .hold) ∧
    (s.pwr.entering = none → s.pwr.mode ≠ .hold → exec .holdWakeNLow s = .next s) ∧
    -- a low level during the entry waits until the device has reached HOLD
    (s.pwr.entering.isSome = true → Yields .holdWakeNLow s fun t => t = { s with pwr := { s.pwr with wakeN := true } }) ∧
    (∀ b, s.pwr.entering = some b → s.pwr.mode = .run → s.alive = true → s.pwr.wakeN = true → s.pwr.lateReset = none →
      (∀ e ∈ s.net.ctx.ents, e.2.formed = []) → Yields .holdEntryComplete s fun t => t.pwr.mode = .hold ∧
        t.pwr.entering = none ∧ t.pwr.retReq = false ∧ t.pwr.exiting = true ∧ t.pwr.wakeN = false) ∧
    -- so does a device reset
    (∀ b c, s.pwr.entering = some b → s.pwr.mode = .run → s.alive = true → s.pwr.lateReset = some c →
      (∀ e ∈ s.net.ctx.ents, e.2.formed = []) → Yields .holdEntryComplete s fun t => t.pwr.mode = .boot ∧ t.pwr.cause = c ∧
        t.pwr.entering = none ∧ t.pwr.lateReset = none ∧ t.fab = {}) ∧
    (s.pwr.mode = .hold → s.pwr.exiting = true → s.coreGood = true → Yields .holdExitResume s fun t => t.pwr.mode = .run ∧
      t.pwr.exiting = false ∧ t.pwr.wakes = [] ∧ (∀ p < 32, (t.pch p).st = if (s.pch p).st = .selfRefresh then .active else (s.pch p).st) ∧
      ∀ m < 192, (t.mea m).col = (s.mea m).colHold.getD (s.mea m).col ∧ (t.mea m).live = (s.mea m).live) ∧
    (s.pwr.mode = .hold → s.pwr.exiting = true → s.coreGood = false → Yields .holdExitRailTimeout s fun t => t.pwr.mode = .hold ∧
      t.pwr.exiting = false ∧ t.pwr.wakeCmds = [] ∧ t.fab = s.fab) ∧
    (∀ k : CueKey, s.pwr.mode = .hold → s.cueDue k = true → (s.cue k).inHold = false → Yields (.holdCueDisarm k) s fun t =>
      (t.cue k).armed = false ∧ t.fab = s.fab ∧ t.que = s.que ∧ t.net = s.net)

/-! ## Loading, recoat, scrubbing (17, 18) -/

/-- R370, R371, R375 to R378, R388, R389, R394, R396: the commands of configuration, recoat, scrubbing and readback. -/
def Obligations.ConfigurationCommandsServed : Prop :=
  ∀ (s : State) (h : HostId) (c : Cmd),
    (s.ldr.job = none → s.testing = false → s.pwr.loadWait = false → s.wrd.bg = [] →
      Serves s h 0x0301 (.configLoad h) c stQueued [] fun t => c.bg h ∈ t.wrd.bg ∧
        (∃ j, t.ldr.job = some j ∧ j.cmd = some (c.bg h) ∧ j.recoat = false ∧ j.hdr = none ∧
          (c.f 0 0 1 = 0 → j.src = .flash) ∧ (c.f 0 0 1 = 1 → j.src = .buffer ∧ j.handle = c.f 1 0 20 ∧ j.len = c.arg 2)) ∧
        (s.running = true → t.pwr.mode = .load ∧ t.pwr.ghold = true ∧ t.pwr.fabClk = false ∧ t.pwr.cfgDone = false ∧
          ∀ m < 192, (t.mea m).gate.isOpen = false ∧ (t.mea m).under = {} ∧ (t.mea m).ucState = .empty)) ∧
    ((s.ldr.job.isSome = true ∨ s.testing = true) → Serves s h 0x0301 (.configLoad h) c stBusy [] (Same s)) ∧
    (∀ j : Load, j = {
        src := .buffer, handle := c.f 1 0 20, off := c.f 1 20 36, len := c.arg 2, cmd := some (c.bg h)
        world := c.world, recoat := true } →
      (∀ m ∈ s.imageTargets j, reaches c.world (s.mea m).world = true ∧ s.swapPending m = false ∧ s.recoatNames m = false) →
      Serves s h 0x0302 (.recoatLoad h) c stQueued [] fun t => c.bg h ∈ t.wrd.bg ∧
        (∀ m ∈ s.imageTargets j, (t.mea m).ucState = .loading ∧ (t.mea m).under = {} ∧ (t.mea m).live = (s.mea m).live) ∧
        (s.ldr.job = none → t.ldr.job = some { j with targets := s.imageTargets j }) ∧
        (s.ldr.job.isSome = true → t.ldr.queue = s.ldr.queue ++ [{ j with targets := s.imageTargets j }])) ∧
    (∀ m, m = c.f 0 0 8 → reaches c.world (s.mea m).world = true → s.swapPending m = false →
      ((s.mea m).ucState = .verified ∨ (s.mea m).ucState = .previous → Serves s h 0x0303 (.recoatDiscard h) c stOk [] fun t =>
        (t.mea m).ucState = .empty ∧ (t.mea m).under = {} ∧ (t.mea m).live = (s.mea m).live ∧ ∀ k ≠ m, t.mea k = s.mea k) ∧
      ((s.mea m).ucState = .empty → Serves s h 0x0303 (.recoatDiscard h) c stIgnored [] (Same s))) ∧
    Serves s h 0x0304 (.meadowQuery h) c stOk [s.meadowStatus (c.f 0 0 8)] (Same s) ∧
    (∀ b, s.buf (c.f 2 0 20) = some b → b.isStore = false → reaches c.world b.world = true →
      reaches c.world (s.mea (c.f 0 0 8)).world = true → Serves s h 0x0305 (.configReadback h) c stQueued [] fun t =>
        c.bg h ∈ t.wrd.bg ∧ t.ldr.readback = s.ldr.readback ++ [{
          cmd := c.bg h, meadow := c.f 0 0 8, first := c.f 1 0 12, count := c.f 1 16 12, handle := c.f 2 0 20, off := c.f 2 20 36
          world := c.world }]) ∧
    (∀ m, m = c.f 0 0 8 → c.f 0 15 1 = 0 → ∀ p, (p = true ↔ c.f 0 16 1 = 1) →
      let i := if p then Instr.scrubControl h else .scrubControlResume h
      ((s.mea m).scrubPause = p → Serves s h 0x0A01 i c stIgnored [] (Same s)) ∧
      ((s.mea m).scrubPause = !p → Serves s h 0x0A01 i c stOk [] fun t =>
        t.mea m = { s.mea m with scrubPause := p } ∧ ∀ k ≠ m, t.mea k = s.mea k)) ∧
    Serves s h 0x0A02 (.scrubQuery h) c stOk [(s.scrub (c.f 0 0 2)).passes.toNat, (s.scrub (c.f 0 0 2)).passUs,
      pack [((s.scrub (c.f 0 0 2)).ecc.toNat, 32), ((s.scrub (c.f 0 0 2)).stored.toNat, 16), ((s.scrub (c.f 0 0 2)).faults.toNat, 0)]]
      (Same s)

/-- R359 to R362, R368, R369, R372 to R374, R378: a load's pointer table, header and blocks, and how it ends. -/
def Obligations.LoadsRun : Prop :=
  ∀ (s : State) (j : Load),
    let fails := fun (i : Instr) (cause : Nat) => Yields i s fun t =>
      t.ldr.job = some { j with failed := some cause, body := [], inBody := false } ∧ t.fab = s.fab
    (s.loading = some j → j.recoat = false →
      (j.src = .flash → j.ptr = false → s.ldr.flash0.usable = true → s.ldr.flash1.usable = true → let l := s.ldr.stream 0 32
        (numAt l 0 4 ≠ 0x42505431 → fails .bootPointerTable 1) ∧
        (numAt l 0 4 = 0x42505431 → zeroAt l 4 4 = true → zeroAt l 24 8 = true → numAt l 8 8 % 65536 = 0 → numAt l 16 8 % 65536 = 0 →
          Yields .bootPointerTable s fun t => t = { s with ldr := { s.ldr with
            flash0 := { s.ldr.flash0 with switched := true }, flash1 := { s.ldr.flash1 with switched := true }, job := some { j with
            ptr := true, off := numAt l 8 8, fbOff := if s.pwr.straps.cfgSrc = 3 then 0 else numAt l 16 8 } } })) ∧
      (j.src = .flash → j.ptr = false → s.ldr.flash0.usable = false ∨ s.ldr.flash1.usable = false → fails .bootPointerTable 0x11) ∧
      (∀ u l, j.hdr = none → j.src = .buffer ∨ (j.src = .flash ∧ j.ptr = true) → s.loadLines j = true → s.loadRead j 0 512 = (u, .ok l) →
        match u.headerFault j l (parseHeader l) with
        | some e => fails .imageHeader e
        | none => Yields .imageHeader s fun t => (∃ st, t.ldr.job = some { j with
          hdr := some (parseHeader l), store := st }) ∧ (∀ m < 192, (t.mea m).live = {}) ∧ t.mem.skim = {} ∧ t.mem.screed = {}) ∧
      (∀ x u raw, j.hdr = some x → j.inBody = false → j.blk < x.blocks → s.loadLines j = true →
        s.loadRead j (512 + 65536 * j.blk) 65536 = (u, .ok raw) →
        match openBlock (u.loadKey x.keySrc) x x.digest j.blk raw with
        | some p => Yields .imageBlock s fun t => t.fab = s.fab ∧
          t.ldr.job = some { j with hdr := some { x with digest := bytesAt p 65472 48 }, blk := j.blk + 1, body := p.take 65472, inBody := true }
        | none => fails .imageBlock 7) ∧
      (j.src = .chain → j.hdr = none → fails .chainTimeout 0x10) ∧
      (j.src = .chain → j.arriving = true → fails .chainStallTimeout 8) ∧
      (∀ p, j.src = .chain → j.hdr = none → s.ldr.pos = some p → 7 < p → fails .imageHeader 0x0F)) ∧
    (∀ cause, s.ldr.job = some j → j.failed = some cause → s.alive = true →
      (j.src = .flash → j.fallback = false → j.fbOff ≠ 0 → Yields .fullLoadFailed s fun t => t.ldr.job = some {
        src := .flash, off := j.fbOff, cmd := j.cmd, world := j.world, ptr := true, service := j.service, fallback := true }) ∧
      (j.src ≠ .flash ∨ j.fallback = true ∨ j.fbOff = 0 → Yields .fullLoadFailed s fun t => t.ldr.job = none ∧
        t.pwr.cfgErr = true ∧ t.pwr.cfgErrN = true ∧ t.pwr.loadCause = BitVec.ofNat 7 cause ∧ t.pwr.mode = s.pwr.mode ∧
        (j.hdr.isSome = true → ∀ m < 192, (t.mea m).live = {}))) ∧
    (s.ldr.job = some j → j.ended = true → j.recoat = false → s.alive = true → Yields .globalHoldRelease s fun t =>
      t.pwr.mode = (if j.service then .service else .run) ∧ t.pwr.ghold = false ∧ t.pwr.fabClk = true ∧ t.pwr.cfgDone = true ∧
      t.ldr.job = none ∧ ∀ m < 192, (t.mea m).gate.isOpen = true ∧ (t.mea m).live = (s.mea m).live) ∧
    (s.ldr.job = some j → j.recoat = true → j.ended = true → s.alive = true → Yields .recoatLoadDone s fun t =>
      (∀ m ∈ j.targets, (t.mea m).ucState = .verified ∧ (t.mea m).live = (s.mea m).live) ∧
      t.ldr.job = s.ldr.queue.head? ∧ t.ldr.queue = s.ldr.queue.tail) ∧
    (∀ up : BitVec 4, s.clk.locked = true → s.clk.fast = false → s.alive = true →
      let trained := fun p : Nat => Yields (.chainLinkTrained up) s fun t =>
        t = { s with ldr := { s.ldr with pos := some p }, out := t.out } ∧
        t.out = s.out ++ [.chainPos p] ++ if s.ldr.forward then [.chainForward s.ldr.fwdAt] else []
      (s.pwr.straps.cfgSrc = 2 → up.toNat + 1 ≤ 7 → trained (up.toNat + 1)) ∧
      (s.pwr.straps.cfgSrc ≠ 2 → trained 0) ∧
      -- a position beyond 7 ends a chain load
      (∀ j, s.pwr.straps.cfgSrc = 2 → up.toNat = 7 → s.loading = some j → j.src = .chain → j.recoat = false →
        Yields (.chainLinkTrained up) s fun t => t.fab = s.fab ∧ ∃ k, t.ldr.job = some k ∧ k.failed = some 0x0F))

/-- R363 to R366: what each record of an image's body does, and that a record which is malformed, or holds a frame with a
forbidden routing code, fails the load. -/
def Obligations.RecordsAct : Prop :=
  ∀ (s : State) (j : Load) (x : Header) (w : Nat), s.loading = some j → j.hdr = some x → j.record = some w →
    let n := fld w 0 16
    let fa := fld w 32 20
    let plane := fun t : State => (t.mea (fa / 4096)).plane j.recoat
    let frames := fun (i : Instr) (size : Nat) (src : BitVec 2) (data : Nat → List Byte) =>
      8 + size < j.body.length → frameFault j x fa n = none → (∀ k < n, fa + k ∉ j.frames) →
      let legal := ∀ k < n, src = 2 ∨ frameRefused ((fa + k) % 4096) (BitVec.ofNat 4096 (leNat (data k))) = false
      Yields i s fun t => (legal ∨ j.recoat = false → ∀ m ≠ fa / 4096, t.mea m = s.mea m) ∧
        (legal → (∀ k < n, (plane t).frames.get 0 (fa % 4096 + k) = BitVec.ofNat 4096 (leNat (data k)) ∧
          ((plane t).sigs.get {} (fa % 4096 + k)).crc = crc32 (data k) ∧ ((plane t).sigs.get {} (fa % 4096 + k)).src = src) ∧
          ∃ k, t.ldr.job = some k ∧ k.failed = j.failed ∧ k.body = j.body.drop (8 + size)) ∧
        (¬ legal → j.recoat = false → ∃ k, t.ldr.job = some k ∧ k.failed = some 0x0D)
    (w = 0 → j.blk < x.blocks → Yields (.recordPad) s fun t => t.fab = s.fab ∧
      t.ldr.job = some { j with body := [], inBody := false }) ∧
    (recType w = 1 → named w [(0, 16), (32, 20), (60, 4)] = true → rng n 1 127 = true →
      frames (.recordFrames []) (512 * n) 0 fun k => bytesAt j.body (8 + 512 * k) 512) ∧
    (recType w = 2 → named w [(0, 16), (32, 20), (60, 4)] = true → rng n 1 3072 = true →
      frames (.recordRepeat []) 512 1 fun _ => bytesAt j.body 8 512) ∧
    (recType w = 3 → named w [(0, 16), (32, 20), (60, 4)] = true → rng n 1 3072 = true →
      frames (.recordZero []) 0 2 fun _ => List.replicate 512 0) ∧
    (recType w = 4 → named w [(0, 14), (31, 13), (44, 14), (59, 1), (60, 4)] = true → j.recoat = false → rng (fld w 0 14) 1 8183 = true →
      fld w 59 1 = 0 → fld w 44 14 < 12288 → fld w 31 13 + fld w 0 14 ≤ 1024 → 8 + 8 * fld w 0 14 < j.body.length →
      Yields .recordMem s fun t => t.fab = s.fab ∧ t.mem.screed = s.mem.screed ∧ ∀ k < 8 * fld w 0 14,
        t.mem.skim.read (8192 * fld w 44 14 + 8 * fld w 31 13 + k) = j.body.getD (8 + k) 0) ∧
    (recType w = 6 → named w [(0, 14), (32, 20), (60, 4)] = true → rng (fld w 0 14) 1 8183 = true →
      frameFault j x fa (fld w 0 14) = none → 8 + 8 * fld w 0 14 < j.body.length → (∀ k < fld w 0 14, fa + k ∉ j.essmaps) →
      Yields .recordEssmap s fun t => ∀ k < fld w 0 14,
        ((plane t).sigs.get {} (fa % 4096 + k)).essmap = BitVec.ofNat 64 (numAt j.body (8 + 8 * k) 8) ∧
        (plane t).frames = (plane s).frames) ∧
    -- a field that lies in more than one frame is checked at the end
    (recType w = 15 → named w [(60, 4)] = true → x.blocks ≤ j.blk →
      -- which frame that END writes zero verifies wrong, if one does, is free
      let bad := j.endFault (Config.freeValue s.free)
      let p := fun m => ((s.mea m).plane j.recoat).zeroRest fun f => j.frames.contains (4096 * m + f)
      let refused := fun m => (p m).given && (Config.decodeFrames (p m).frames.ents).refused
      (∀ fa, bad = some fa → j.recoat = false → Yields .recordEnd s fun t => ∃ k, t.ldr.job = some k ∧ k.failed = some 0x0E ∧ k.fa = fa) ∧
      (bad = none → j.recoat = false → (∃ m < 192, refused m = true) → Yields .recordEnd s fun t =>
        ∃ k, t.ldr.job = some k ∧ k.failed = some 0x0D) ∧
      (bad = none → (∀ m ∈ j.meadows, refused m = false) → Yields .recordEnd s fun t =>
        t.ldr.job = some { j with body := [], inBody := false, ended := true } ∧ ∀ m ∈ j.meadows,
          ((t.mea m).plane j.recoat).pers = Config.decodeFrames ((t.mea m).plane j.recoat).frames.ents ∧
          ∀ f, ((t.mea m).plane j.recoat).frames.get 0 f =
            if j.frames.contains (4096 * m + f) then ((s.mea m).plane j.recoat).frames.get 0 f else 0)) ∧
    (recType w = 15 → j.blk < x.blocks → j.recoat = false → Yields .recordEnd s fun t => t.fab = s.fab ∧
      ∃ k, t.ldr.job = some k ∧ k.failed = some 9) ∧
    (recType w ∉ [1, 2, 3, 4, 6, 15] → w ≠ 0 → j.recoat = false → Yields .recordPad s fun t => t.fab = s.fab ∧
      ∃ k, t.ldr.job = some k ∧ k.failed = some 9)

/-- R384 to R388: the swap of a meadow: masking at the launch, the exchange of the planes at its edge, the release. -/
def Obligations.SwapRuns : Prop :=
  ∀ s : State,
    (∀ (k : CueKey) m x, m = (s.cue k).target → x = s.mea m → lastLaunch s k 0x0301 → s.pwr.mode ≠ .hold → x.masked = false →
      Yields (.cueRecoatSwap k) s fun t => launchedOnce s t k ∧ t.mea m = { x with
        masked := true, xout := (s.advanceCue k).maskOut m, ffs := (t.mea m).ffs
        swapT := some ((s.cue k).launch, (s.cue k).host, BitVec.ofNat 32 (s.cueHandle k), (s.cue k).notify)
        gate := { x.gate with ready := false } } ∧
        -- an asynchronous set/reset that a masked crossing drives may act; nothing else changes in another meadow
        ∀ j ≠ m, t.mea j = { s.mea j with ffs := (t.mea j).ffs }) ∧
    (∀ (m : MeadowId) i, s.running = true →
      (i = Instr.recoatSwapEdge m ∧ s.swapClockRuns m = true ∧ s.swapDue m 12000 = true ∧ s.swapDue m 13000 = false) ∨ (i = .swapForced m ∧ s.swapDue m 13000 = true) →
      Yields i s fun t => (t.mea m).live = (s.mea m).under ∧ (t.mea m).under = (s.mea m).live ∧ (t.mea m).ucState = .previous ∧
        (t.mea m).swapT = none ∧ (t.mea m).swapped = true ∧ (t.mea m).masked = (s.mea m).masked ∧
        (t.mea m).swaps = satInc (s.mea m).swaps ∧ (t.mea m).world = (s.mea m).world ∧
        ∀ j, j ≠ m.val → (t.mea j).live = (s.mea j).live ∧ (t.mea j).under = (s.mea j).under) ∧
    (∀ m : MeadowId, s.swapDue m 12000 = false ∨ s.swapDue m 13000 = true → exec (.recoatSwapEdge m) s = .next s) ∧
    (∀ m : MeadowId, s.running = true → (s.mea m).masked = true → (s.mea m).swapped = true →
      Yields (.maskingRelease m) s fun t => (t.mea m).masked = false ∧ (t.mea m).swapped = false ∧ (t.mea m).frst = false ∧
        (t.mea m).gate.ready = true ∧ (t.mea m).gate.held = [] ∧ (t.mea m).live = (s.mea m).live)

/-- R389 to R393, R395: the scrubber's reads, its repairs and its undercoat turn; the end of a readback. -/
def Obligations.ScrubbersRun : Prop :=
  ∀ (s : State) (hh : HeathId), let c := s.scrub hh
    (∀ k m f r, s.scrubs = true → c.turn = false → c.rebuild = none → s.scrubNext hh c.meadow = some k → m = 48 * hh.val + k →
      f = (s.mea m).scrubAt → f < 3071 →
      -- the plane as the read leaves it, with the errors in check bits that the row gives; what the read finds in it
      let p := (s.mea m).live.noteRead f r
      let found := p.found f r
      let cls := scrubClass (p.sigs.get {} f) found
      (scrubWork found = .clean → Yields (.scrubFrameRead hh r) s fun t => (t.mea m).scrubAt = f + 1 ∧ (t.mea m).live = p ∧
        t.wrd = s.wrd ∧ (t.scrub hh).meadow = k) ∧
      (scrubWork found = .correct → r.writeOk = true → Yields (.scrubFrameRead hh r) s fun t => (t.mea m).scrubAt = f + 1 ∧
        (t.mea m).live.frames.get 0 f = (s.mea m).live.frames.get 0 f ^^^ (s.mea m).live.flips.get 0 f ∧
        (t.mea m).live.flips.get 0 f = 0 ∧ (t.mea m).live.checks.get 0 f = 0 ∧ (t.scrub hh).ecc = satInc c.ecc ∧ (t.scrub hh).faults = c.faults) ∧
      (scrubWork found = .rebuild → Yields (.scrubFrameRead hh r) s fun t => (t.mea m).scrubAt = f + 1 ∧
        (t.mea m).live = p ∧ (t.scrub hh).rebuild = some (m, f, false, BitVec.ofNat 3 cls))) ∧
    (∀ r, s.scrubs = false → exec (.scrubFrameRead hh r) s = .next s) ∧
    (∀ m f under cls ok, s.scrubs = true → c.rebuild = some (m, f, under, cls) → m / 48 = hh.val →
      (((s.mea m).plane under).store = none → f ∉ ((s.mea m).plane under).faulty → Yields (.scrubStoreRebuild hh ok) s fun t =>
        f ∈ ((t.mea m).plane under).faulty ∧ ((t.mea m).plane under).frames = ((s.mea m).plane under).frames ∧
        (t.scrub hh).rebuild = none ∧ (t.scrub hh).faults = satInc c.faults) ∧
      (∀ hd u d, ((s.mea m).plane under).store = some hd →
        (s.setScrub hh { c with rebuild := none }).storeFrame hd (((s.mea m).plane under).sigs.get {} f) = (u, some d) →
        cls ≠ 2 → crc32 d = (((s.mea m).plane under).sigs.get {} f).crc → ok = true → Yields (.scrubStoreRebuild hh ok) s fun t =>
          ((t.mea m).plane under).frames.get 0 f = BitVec.ofNat 4096 (leNat d) ∧ (t.scrub hh).stored = satInc c.stored ∧
          (t.scrub hh).rebuild = none)) ∧
    (s.scrubs = true → c.turn = true → c.rebuild = none →
      (s.turnMeadow hh = none → Yields (.scrubUndercoatTurn hh []) s fun t => t = s.setScrub hh { c with turn := false }) ∧
      (∀ k, s.turnMeadow hh = some k → (s.mea (48 * hh.val + k)).under.upsetFrames = [] → Yields (.scrubUndercoatTurn hh []) s fun t =>
        t.scrub hh = { c with turn := false, lastUnder := k } ∧ t.fab = s.fab)) ∧
    (∀ r, (s.ldr.readback.find? fun r => r.meadow / 48 = hh.val) = some r → s.running = true → s.linesExist r.handle = true →
      Yields (.configReadbackDone hh []) s fun t => t.ldr.readback = s.ldr.readback.erase r ∧ t.fab = s.fab)

/-! ## Clocks (19) -/

/-- R402, R406, R410 to R416: the clock commands and what ends them. -/
def Obligations.ClockCommandsServed : Prop :=
  ∀ (s : State) (h : HostId) (c : Cmd),
    (∀ l x, l = c.f 0 0 6 → x = s.floop l →
      Serves s h 0x0905 (.loopConfigure h) c stOk [] fun t => (t.floop l).a1 = BitVec.ofNat 64 (c.arg 1) ∧
        (t.floop l).a2 = BitVec.ofNat 64 (c.arg 2) ∧ (∀ k ≠ l, t.floop k = s.floop k) ∧
        (BitVec.ofNat 64 (c.arg 1) = x.a1 → (t.floop l).locked = x.locked) ∧
        (BitVec.ofNat 64 (c.arg 1) ≠ x.a1 → (t.floop l).locked = false)) ∧
    (∀ src, src = c.f 0 8 8 → c.f 0 0 8 = 0 →
      (s.srcReady src = true → Serves s h 0x0903 (.clockSwitchPref h) c stOk [] fun t => t.clk.pref = BitVec.ofNat 8 src ∧
        t.clk.move = (if BitVec.ofNat 8 src = s.clk.pref then s.clk.move else s.clk.locked && decide (BitVec.ofNat 8 src ≠ s.clk.ref)) ∧ t.clk.gclk = s.clk.gclk) ∧
      (s.srcReady src = false → Serves s h 0x0903 (.clockSwitchPref h) c stNotReady [] (Same s))) ∧
    (∀ src g, src = c.f 0 8 8 → c.f 0 0 8 ≠ 0 → g = c.f 0 0 8 - 0x80 → (s.mb h).running = some c → c.code = 0x0903 →
      (src = 0 ∨ s.srcReady src = true → Yields (.clockSwitch h) s fun t =>
        t = s.setGclk g { s.gclk g with sw := some (BitVec.ofNat 8 src, c.bg h) }) ∧
      (src ≠ 0 → s.srcReady src = false → Yields (.clockSwitch h) s fun t => Same s t ∧ Gave t h c stNotReady 0 [])) ∧
    (∀ (g : GclkId) src forced, (s.gclk g).sw = some (src, c.bg h) → (s.mb h).running = some c →
      (forced = true ∨ s.gclkRuns g = true) → Yields (.clockSwitchComplete g forced) s fun t =>
        (t.gclk g).src = src ∧ (t.gclk g).sw = none ∧ (t.gclk g).switches = satInc (s.gclk g).switches ∧
        (t.gclk g).forced = ((s.gclk g).forced || forced) ∧ (t.mb h).running = none ∧ Gave t h c stOk 0 []) ∧
    (∀ g, g = c.f 0 0 16 → gateCode g = true → rowGate g = false →
      (c.f 0 16 1 = 1 → s.gateOf g ≠ .opened → Serves s h 0x0904 (.clockGate h) c stIgnored [] (Same s)) ∧
      (c.f 0 16 1 = 1 → s.gateOf g = .opened → (s.mb h).running = some c → c.code = 0x0904 → Yields (.clockGate h) s fun t =>
        t.gateOf g = .closing ∧ t.clk.closing = s.clk.closing ++ [(g, c.bg h)] ∧ (t.mb h).running = some c) ∧
      (c.f 0 16 1 = 0 → s.gateOf g = .opened → Serves s h 0x0904 (.clockUngate h) c stIgnored [] (Same s)) ∧
      (c.f 0 16 1 = 0 → s.gateOf g ≠ .opened → Serves s h 0x0904 (.clockUngate h) c stOk [] fun t => t.gateOf g = .opened)) ∧
    (∀ code : BitVec 16, gateCode code.toNat = true → s.gateOf code.toNat = .closing → s.gateIdle code.toNat = true →
      Yields (.clockGateClosed code) s fun t => t.gateOf code.toNat = .gated) ∧
    ((s.mb h).running = some c → c.code = 0x0906 → Yields (.freqMeasure h) s fun t =>
      t = { s with clk := { s.clk with meas := s.clk.meas ++ [(BitVec.ofNat 8 (c.f 0 0 8), c.bg h)] } }) ∧
    (∀ src edges rest, s.clk.meas = (src, c.bg h) :: rest → (s.mb h).running = some c → Yields (.freqMeasureDone src edges) s fun t =>
      t.clk.meas = rest ∧ (t.mb h).running = none ∧ Gave t h c stOk 0
        [if s.clk.gone.get false src.toNat then 0 else edgesHz (s.ownEdges src.toNat edges),
          pack [(bit s.clk.coast, 1), (bit s.clk.fast, 0)]])

/-- R398 to R409, R34: what happens to the clock sources, the root loop and the fabric loops. -/
def Obligations.ClockHappenings : Prop :=
  ∀ s : State, s.alive = true →
    (∀ src : BitVec 8, s.canBeReady src.toNat = true → Yields (.sourceReady src) s fun t => t.clk.ready.get false src.toNat = true ∧ t.clk.gone.get false src.toNat = false ∧
      (∀ g < 64, (s.gclk g).src = src → (t.gclk g).stopped = false) ∧ t.clk.dead = s.clk.dead) ∧
    (∀ src : BitVec 8, monitored src.toNat = true → Yields (.sourceDead src) s fun t => t.clk.ready.get false src.toNat = false ∧
      t.clk.dead.get false src.toNat = true ∧ t.clk.gone.get false src.toNat = true ∧ (∀ g < 64, (s.gclk g).src = src → (t.gclk g).stopped = true) ∧
      ∀ l < 64, (s.floop l).ref = src.toNat → (s.floop l).locked = true →
        (t.floop l).refLost = true ∧ (t.floop l).locked = false ∧ (t.floop l).loss = true) ∧
    (s.clk.locked = true → s.clk.ref = 3 ∨ s.clk.ref = 4 → Yields .coastTrim s fun t =>
      t.clk.trims = min (s.clk.trims + 1) 1000 ∧ (1000 ≤ s.clk.trims + 1 → t.clk.trimmed = true)) ∧
    (s.clk.locked = true → Yields .rootReferenceLost s fun t => t = { s with clk := { s.clk with holding := true } }) ∧
    (s.clk.locked = true → s.clk.holding = true ∨ s.clk.move = true → Yields .rootCoast s fun t => t.clk.locked = false ∧
      t.clk.coast = true ∧ t.clk.ref = 0 ∧ t.clk.coasts = satInc s.clk.coasts ∧
      t.tl.incr = incrOf true (if s.tl.stepPend.isSome then s.servoRange else s.tl.adj) ∧ t.tl.now = s.tl.now) ∧
    (∀ r, s.clk.coast = true → s.relockRef = some r → Yields .rootRelock s fun t => t.clk.locked = true ∧ t.clk.coast = false ∧
      t.clk.ref = r ∧ t.clk.fast = decide (r = 1) ∧ t.tl.incr = incrOf false (if s.tl.stepPend.isSome then
        (if r = 1 then 3932160000 else 32768000) else s.tl.adj) ∧ t.tl.now = s.tl.now) ∧
    (s.clk.coast = true → s.relockRef = none → exec .rootRelock s = .next s) ∧
    (∀ l : LoopId, let x := s.floop l
      (x.locked = false → x.refLost = false → x.ref ≠ 0 → s.srcReady x.ref = true → s.pwr.mode ≠ .hold →
        Yields (.fabricLoopLock l) s fun t => t.floop l = { x with locked := true } ∧ (∀ k, k ≠ l.val → t.floop k = s.floop k) ∧
          ∀ g < 64, (t.gclk g).src = (s.gclk g).src ∧ ((s.gclk g).stopped = false → t.gclk g = s.gclk g)) ∧
      (x.locked = true → Yields (.fabricLoopRefLost l) s fun t =>
        t = s.setFloop l { x with locked := false, refLost := true, loss := true }) ∧
      (x.refLost = true → s.srcReady x.ref = true → Yields (.fabricLoopRelock l) s fun t =>
        t = s.setFloop l { x with locked := true, refLost := false }))

/-! ## Worlds, lifecycle, pins, registers (21, 23, 15) -/

/-- The state's response to command `c` is not OK and nothing else happens. -/
def TurnedAway (s : State) (h : HostId) (k : BitVec 16) (i : Instr) (c : Cmd) (status : BitVec 8) (cause : BitVec 16) : Prop :=
  (s.mb h).running = some c → c.code = k →
    Yields i s fun t => (t.mb h).running = none ∧ Gave t h c status cause [] ∧ Same s t

/-- The transitions that R444 permits. -/
def permitted (old new : Life) : Prop :=
  (old = .blank ∧ new = .opened) ∨ (old = .opened ∧ new = .sealed) ∨ (old = .sealed ∧ new = .returned) ∨ (old ≠ .scrapped ∧ new = .scrapped)

/-- R436 to R440: WORLD_SET changes the world of the one resource it names, and WORLD_QUERY reads it; a repeated world is
IGNORED; the owner host keeps its world.
R443 to R447: the lifecycle advances only along a permitted transition that the authorisation block signs; the fuses
are programmed and the state is in force from the next start-up on. -/
def Obligations.WorldsAndLifecycleServed : Prop :=
  (∀ (s : State) (h : HostId) (c : Cmd), c.f 0 0 4 < 6 →
    let kind := c.f 0 0 4
    let i := c.arg 1
    let w := decide (c.f 0 4 1 = 1)
    (s.worldOf kind i = none → TurnedAway s h 0x0201 (.worldSet h) c stBadArg (argOff 1 0)) ∧
    (kind = 5 → i = s.pwr.owner → s.worldOf kind i ≠ none → TurnedAway s h 0x0201 (.worldSet h) c stBadArg (argOff 1 0)) ∧
    (∀ old, s.worldOf kind i = some old → ¬ (kind = 5 ∧ i = s.pwr.owner) →
      (old = w → TurnedAway s h 0x0201 (.worldSet h) c stIgnored 0) ∧
      (old ≠ w → Serves s h 0x0201 (.worldSet h) c stOk [] fun t => t.worldOf kind i = some w ∧
        (∀ m, (kind ≠ 0 ∨ m ≠ i → (t.mea m).world = (s.mea m).world) ∧ (kind ≠ 4 ∨ m ≠ i → (t.mea m).screedWorld = (s.mea m).screedWorld) ∧
          (t.mea m).live = (s.mea m).live) ∧
        (∀ k, kind ≠ 1 ∨ k ≠ i → (t.ctx k).world = (s.ctx k).world) ∧ (∀ k, kind ≠ 2 ∨ k ≠ i → t.que.world.get false k = s.que.world.get false k) ∧
        (∀ k, kind ≠ 3 ∨ k ≠ i → (t.row k).world = (s.row k).world) ∧ t.pwr = s.pwr ∧ t.sec = s.sec ∧ t.mem = s.mem ∧ t.hbm = s.hbm)) ∧
    (∀ v, s.worldOf kind i = some v → Serves s h 0x0202 (.worldQuery h) c stOk [bit v] (Same s)) ∧
    (s.worldOf kind i = none → TurnedAway s h 0x0202 (.worldQuery h) c stBadArg (argOff 1 0))) ∧
  (∀ (s : State) (h : HostId) (c : Cmd) (new : Life),
    (lifeOf (c.f 0 0 4) = some new → ¬ permitted s.sec.life new →
      TurnedAway s h 0x0B03 (.lifecycleAdvance h) c stBadArg (argOff 0 0)) ∧
    (lifeOf (c.f 0 0 4) = none → TurnedAway s h 0x0B03 (.lifecycleAdvance h) c stBadArg (argOff 0 0)) ∧
    (∀ u b, lifeOf (c.f 0 0 4) = some new → permitted s.sec.life new → readBlock s h c 1 272 = (u, .ok b) →
      authFault b s.sec.life new = none →
      Serves s h 0x0B03 (.lifecycleAdvance h) c stQueued [] fun t =>
        if s.authorised b s.sec.life new = true then
          t.sec = { s.sec with adv := some (c.bg h, new, b) } ∧ t.mem.wiping = true ∧ t.mem.pad = {} ∧ c.bg h ∈ t.wrd.bg ∧
            ∀ r < 256, (s.region r).world = true → (t.region r).stale = true
        else t.sec = s.sec ∧ t.mem.wiping = s.mem.wiping ∧ t.pwr = s.pwr) ∧
    (∀ b block, s.sec.adv = some (b, new, block) → s.mem.wiping = false → s.alive = true →
      Yields .lifecycleFusesProgrammed s fun t => t.wrd.resetDue = true ∧ t.sec.adv = none ∧ t.sec.fused = some new ∧
        t.sec.life = s.sec.life ∧ t.sec.keyRam = s.sec.keyRam ∧ t.sec.efuse = s.sec.efuse ∧ t.sec.serial = s.sec.serial ∧
        (new = .opened → t.sec.ownerHash = (block.drop 16).take 48 ∧ t.sec.subsys = BitVec.ofNat 32 (blockWord block 64 / 2 ^ 32)) ∧
        (new ≠ .opened → t.sec.ownerHash = s.sec.ownerHash ∧ t.sec.subsys = s.sec.subsys) ∧
        (new = .sealed → t.sec.ownerFuse = BitVec.ofNat 3 (blockWord block 72) ∧
          t.sec.tamperEn = BitVec.ofNat 4 (fld (blockWord block 72) 8 4)) ∧
        (new ≠ .sealed → t.sec.ownerFuse = s.sec.ownerFuse ∧ t.sec.tamperEn = s.sec.tamperEn)) ∧
    Serves s h 0x0B04 (.lifecycleQuery h) c stOk
      [s.sec.life.code, Config.resultWord 0x0B04 1 (s.sec.life.targets.map Life.code)] (Same s))

/-- R479: a pin whose enabled output disagrees with its pad is faulted and counted, and GPIO_RETRY clears that fault only.
R482 to R484: the heritage controllers' DATA registers and bytes, and the user flash, of a unit that is not gated and
not handed to the fabric. -/
def Obligations.IoUnitsRun : Prop :=
  (∀ s : State,
    (∀ (b : BankId) (p : PinId), let k := 48 * b.val + p.val
      (s.running = true ∨ s.pwr.mode = .hold → (s.pin k).fault = none → (s.pinDrive k).out ≠ none →
        Yields (.gpioShortDetect b p) s fun t => t.pin k = { s.pin k with fault := some .short } ∧
          (∀ j ≠ k, t.pin j = s.pin j) ∧ (t.bank b).shorts = satInc (s.bank b).shorts ∧ t.fab = s.fab) ∧
      ((s.pin k).fault.isSome = true ∨ (s.pinDrive k).out = none → exec (.gpioShortDetect b p) s = .next s)) ∧
    ∀ (h : HostId) (c : Cmd), let k := 48 * c.f 0 0 4 + c.f 0 8 6
      ((s.pin k).fault = some .short → Serves s h 0x0A06 (.gpioRetry h) c stOk [] fun t => t.pin k = { s.pin k with fault := none } ∧
        (∀ j ≠ k, t.pin j = s.pin j) ∧ t.fab = s.fab) ∧
      ((s.pin k).fault ≠ some .short → TurnedAway s h 0x0A06 (.gpioRetry h) c stIgnored 0)) ∧
  (∀ (s : State) (h : HostId), s.alive = true → h.val ≠ 4 → s.pwr.mode ≠ .hold →
    (∀ k : Fin 8, let x := s.serial k
      (s.clk.serial = .opened → s.hbFabric k = false →
        (Yields (.heritageDataRead h k) s fun t => t = (s.setSerial k { x with rx := x.rx.tail }).emit
          (.read h (leBytes 8 (match x.rx with | b :: _ => 256 + b.toNat | [] => 0)))) ∧
        (∀ w, h.val = s.pwr.owner → x.tx.length < 64 → Yields (.heritageDataWrite h k w) s fun t =>
          t = s.setSerial k { x with tx := x.tx ++ [if 6 ≤ k.val then w else w &&& 0xFF] }) ∧
        (∀ w, h.val = s.pwr.owner → 64 ≤ x.tx.length → exec (.heritageDataWrite h k w) s = .next s)) ∧
      (s.clk.serial ≠ .opened ∨ s.hbFabric k = true → h.val = s.pwr.owner → ∀ w, Yields (.heritageDataWrite h k w) s fun t => t = s.gatedAcc h) ∧
      (∀ w, h.val ≠ s.pwr.owner → Yields (.heritageDataWrite h k w) s fun t => t.io = s.io ∧ (t.mb h).denied = satInc (s.mb h).denied) ∧
      (x.en = true → s.hbPins k = true → s.clk.serial ≠ .gated →
        (∀ b, x.rx.length < 64 → (∀ w ∈ x.tx.head?, isRead k w = false) → Yields (.heritageSerialByte k (.received b false)) s fun t =>
          t = s.setSerial k { x with rx := x.rx ++ [b] }) ∧
        (∀ b, 64 ≤ x.rx.length → (∀ w ∈ x.tx.head?, isRead k w = false) → Yields (.heritageSerialByte k (.received b false)) s fun t =>
          t = s.setSerial k { x with err := x.err ||| 1 }) ∧
        (∀ w r, x.tx = w :: r → isRead k w = false → Yields (.heritageSerialByte k .sent) s fun t =>
          t = (s.setSerial k { x with tx := r }).emit (.serial k w)) ∧
        (∀ w r, 6 ≤ k.val → x.tx = w :: r → isRead k w = false → Yields (.heritageSerialByte k .nack) s fun t =>
          t = (s.setSerial k { x with tx := r, err := x.err ||| 4 }).emit (.serial k w)) ∧
        (6 ≤ k.val → Yields (.heritageSerialByte k .lostArbitration) s fun t => (t.serial k).err = x.err ||| 8 ∧
          (t.serial k).rx = x.rx ∧ t.fab = s.fab))) ∧
    (∀ page : BitVec 8, h.val = s.pwr.owner → s.clk.flash = .opened → s.hbFabric 8 = false →
      (s.io.ufOp = none → (Yields (.ufErasePage h page) s fun t => t = { s with io := { s.io with ufOp := some (1, page), ufPage := page } }) ∧
        Yields (.ufProgramPage h page) s fun t => t = { s with io := { s.io with ufOp := some (2, page), ufPage := page } }) ∧
      (s.io.ufOp.isSome = true → ∀ i, i = Instr.ufErasePage h page ∨ i = .ufProgramPage h page →
        Yields i s fun t => t = { s with io := { s.io with ufErr := true } })) ∧
    (∀ p : BitVec 8, s.io.uf.dflt = 0xFF →
      (s.io.ufOp = some (1, p) → Yields .ufOperationDone s fun t => t.io.ufOp = none ∧ t.io.ufDone = true ∧
        (∀ i < 2048, t.io.uf.read (2048 * p.toNat + i) = 0xFF) ∧
        (∀ a, a < 2048 * p.toNat ∨ 2048 * p.toNat + 2048 ≤ a → t.io.uf.read a = s.io.uf.read a) ∧
        t.io.ufErases.get 0 p.toNat = s.io.ufErases.get 0 p.toNat + 1 ∧ t.io.ufBuf = s.io.ufBuf) ∧
      (s.io.ufOp = some (2, p) → Yields .ufOperationDone s fun t => t.io.ufOp = none ∧ t.io.ufDone = true ∧
        (∀ i < 2048, t.io.uf.read (2048 * p.toNat + i) = s.io.uf.read (2048 * p.toNat + i) &&& s.io.ufBuf.read i) ∧
        (∀ a, a < 2048 * p.toNat ∨ 2048 * p.toNat + 2048 ≤ a → t.io.uf.read a = s.io.uf.read a) ∧ t.io.ufErases = s.io.ufErases)))

/-- R323 to R325, R328 to R331: accesses of BAR0: those that are not served are counted and change nothing, those of the
owner's registers by another host are refused, and the timeline is sampled by a read of TL_SEC.
R224, R225, R334: accesses of BAR2 reach the mapped buffer in the host's world, or are counted and turned away. -/
def Obligations.RegisterAccesses : Prop :=
  (∀ (s : State) (h : HostId) (off : BitVec 24) (data : BitVec 64),
    (∀ len, s.alive = false → exec (.registerWrite h off len (.write data)) s = .next s) ∧
    (∀ len, s.alive = true → (len ≠ 4 ∧ len ≠ 8) ∨ off.toNat % len ≠ 0 → Yields (.registerWrite h off len (.write data)) s fun t => t = s.gatedAcc h) ∧
    -- a read that has no row of its own: zeros for one that is not served
    (∀ len, s.alive = false → 0x20 ≤ off.toNat → Yields (.registerWrite h off len .read) s fun t =>
      t = s.emit (.read h (List.replicate len 0))) ∧
    (∀ len, s.alive = true → (len ≠ 4 ∧ len ≠ 8) ∨ off.toNat % len ≠ 0 → Yields (.registerWrite h off len .read) s fun t =>
      t = (s.gatedAcc h).emit (.read h (List.replicate len 0))) ∧
    (s.alive = true → h.val ≠ 4 → h.val ≠ s.pwr.owner → off.toNat % 8 = 0 → off.toNat / 0x10000 = 1 ∨ off.toNat / 0x10000 = 0x1F →
      Yields (.registerWrite h off 8 .read) s fun t => t.tl = s.tl ∧ t.mem = s.mem ∧
        (t.mb h).denied = satInc (s.mb h).denied ∧ Out.read h (List.replicate 8 0) ∈ t.out) ∧
    (∀ o, s.alive = true → o < 1024 → off.toNat = 0x1000 + 4 * o → Yields (.registerWrite h off 4 (.write data)) s fun t =>
      (t.mb h).cmd.get 0 o = data.setWidth 32 ∧ (∀ j ≠ o, (t.mb h).cmd.get 0 j = (s.mb h).cmd.get 0 j) ∧
      t = s.setMb h { s.mb h with cmd := (t.mb h).cmd }) ∧
    (∀ l : LoopId, s.alive = true → h.val = s.pwr.owner → h.val ≠ 4 → off.toNat = 0x10100 + 8 * l.val →
      Yields (.registerWrite h off 8 (.write data)) s fun t =>
        t.floop l = { s.floop l with loss := (s.floop l).loss && !data.getLsbD 51 } ∧ (∀ k ≠ l.val, t.floop k = s.floop k) ∧
          t = { s with clk := t.clk }) ∧
    (s.alive = true → h.val ≠ 4 → h.val ≠ s.pwr.owner → off.toNat % 8 = 0 → 0x1C0000 ≤ off.toNat → off.toNat < 0x200000 →
      Yields (.registerWrite h off 8 (.write data)) s fun t => t.io = s.io ∧ t.mem = s.mem ∧ t.fab = s.fab ∧
        (t.mb h).denied = satInc (s.mb h).denied) ∧
    (s.alive = true → h.val = s.pwr.owner → h.val ≠ 4 → s.pwr.mode ≠ .hold → s.clk.flash = .opened → s.hbFabric 8 = false →
      off.toNat = 0x1E8000 → Yields (.registerWrite h off 8 (.write data)) s fun t =>
        t = { s with io := { s.io with ufBank := data.setWidth 4 } }) ∧
    (∀ now, now = s.heathNow (hostHeath h) →
      s.alive = true → Yields (.tlSecRead h) s fun t => t.tl.secLatch.get 0 h = BitVec.ofNat 64 (now / secU) ∧
        t.tl.nsLatch.get 0 h = BitVec.ofNat 64 (pack [(now % secU / nsU, 32), (now % nsU, 0)]) ∧
        t.out = s.out ++ [.read h (leBytes 8 (now / secU % 2 ^ 64))] ∧ t.tl.now = s.tl.now ∧
        t = { s with tl := t.tl, out := t.out }) ∧
    (s.alive = false → Yields (.tlSecRead h) s fun t => t = s.emit (.read h (List.replicate 8 0))) ∧
    (∀ v : BitVec 32, s.alive = true →
      (h.val = s.pwr.owner → Yields (.tlStatusClear h v) s fun t => t = { s with tl := { s.tl with
        stepped := s.tl.stepped && !v.getLsbD 8, skewFault := s.tl.skewFault && !v.getLsbD 7 } }) ∧
      (h.val ≠ s.pwr.owner → Yields (.tlStatusClear h v) s fun t => t.tl = s.tl ∧ (t.mb h).denied = satInc (s.mb h).denied)) ∧
    (Yields (.unitAccessTimeout h true) s fun t => t = (s.gatedAcc h).emit (.read h (List.replicate 8 0))) ∧
    (Yields (.unitAccessTimeout h false) s fun t => t = s.gatedAcc h)) ∧
  (∀ (s : State) (h : HostId) (addr : BitVec 36), s.alive = true →
    (∀ data be, badApAccess h addr.toNat data.length = true → Yields (.bar2Write h addr data be) s fun t => t = s.gatedAcc h) ∧
    (∀ data be, badApAccess h addr.toNat data.length = false →
      (s.aperture h addr.toNat data.length = none → Yields (.bar2Write h addr data be) s fun t =>
        t = s.updMb h fun m => { m with apMiss := satInc m.apMiss }) ∧
      (∀ hd off g, s.aperture h addr.toNat data.length = some (hd, off) → s.heldInHold hd = false →
        s.apWrite (s.asker (.host h)) hd off data be = g →
        (g.st = hsOk → Yields (.bar2Write h addr data be) s fun t => t = g.s.serveAll) ∧
        (g.st ≠ hsOk → Yields (.bar2Write h addr data be) s fun t => t = g.s.serveAll.event [h] 0x0601 [hd, off, g.st.toNat])) ∧
      (∀ hd off, s.aperture h addr.toNat data.length = some (hd, off) → s.heldInHold hd = true →
        Yields (.bar2Write h addr data be) s fun t => t.hg.held.length = s.hg.held.length + 1 ∧ t.mem = s.mem ∧ t.hbm = s.hbm ∧
          t.out = s.out)) ∧
    (∀ len, badApAccess h addr.toNat len = true → Yields (.bar2Read h addr len) s fun t =>
      t = (s.gatedAcc h).emit (.read h (List.replicate len 0))) ∧
    (∀ len, badApAccess h addr.toNat len = false →
      (s.aperture h addr.toNat len = none → Yields (.bar2Read h addr len) s fun t =>
        t = (s.updMb h fun m => { m with apMiss := satInc m.apMiss }).emit (.read h (List.replicate len 0))) ∧
      (∀ hd off g, s.aperture h addr.toNat len = some (hd, off) → s.heldInHold hd = false →
        (∀ q ∈ s.hg.held, q.late = true ∨ q.who.requester ≠ (s.asker (.host h)).requester) →
        s.bufRead (s.asker (.host h)) hd off len = g → g.data.length = len →
        Yields (.bar2Read h addr len) s fun t => t = g.s.emit (.read h g.data))))

/-- R319 to R322: configuration requests, link-up and link-down of the PCIe ports.
R335: the four transactions of the SMBus target. -/
def Obligations.LinksAndSmbusServed : Prop :=
  (∀ (s : State) (n : Fin 4), let x := s.link n
    (s.hosts.contains n.val = true → x.cfgReady = false → ∀ reg w, Yields (.pcieConfigRequest n reg w) s fun t => t = s.emit (.cfg n none)) ∧
    (s.hosts.contains n.val = true → x.cfgReady = true →
      (Yields (.pcieConfigRequest n 0 none) s fun t => t = s.emit (.cfg n (some 0x96121F3A))) ∧
      (∀ reg v, let y := { x with cfg := x.cfg.set 0 reg.toNat v }
        (s.pwr.mode ≠ .hold → Yields (.pcieConfigRequest n reg (some v)) s fun t => t = (s.setLink n y).emit (.cfg n (some 0))) ∧
        -- in HOLD a link goes to L1 as its host enables that
        (s.pwr.mode = .hold → x.st = 2 → y.aspm = true → Yields (.pcieConfigRequest n reg (some v)) s fun t =>
          t = (s.setLink n { y with st := 3 }).emit (.cfg n (some 0))))) ∧
    (s.hosts.contains n.val = false → ∀ reg w, exec (.pcieConfigRequest n reg w) s = .next s) ∧
    (∀ gen width flit, s.hosts.contains n.val = true → x.st ≠ 0 → x.st ≠ 2 → x.st ≠ 3 → s.pwr.mode ≠ .hold → s.linkFits n gen width = true →
      RailId.lane ∉ s.pwr.down → RailId.laneTx ∉ s.pwr.down →
      (∀ l ∈ linkLanes n width.toNat, s.laneBusy l = false) → Yields (.pcieLinkUp n gen width flit) s fun t =>
        t = (s.setLinkLanes n gen.toNat width.toNat).setLink n { x with st := 2, gen := gen, width := width, flit := flit || decide (gen = 6), cfgReady := true }) ∧
    -- none trains before the start-up enables it
    (x.st = 0 → ∀ gen width flit, exec (.pcieLinkUp n gen width flit) s = .next s) ∧
    (Yields (.hostLinkReset n true) s fun t => t = (s.dropReads n).setLink n { x with cfg := {} }) ∧
    (s.hosts.contains n.val = true → Yields (.hostLinkReset n false) s fun t => t.mb = s.mb ∧ t.fab = s.fab ∧
      (t.link n).st = (if x.st = 0 then 0 else 4) ∧ (t.link n).cfg = {} ∧ (t.link n).msix = x.msix ∧ (t.link n).cfgReady = false ∧
      (x.st = 2 ∨ x.st = 3 → (t.link n).downs = satInc x.downs) ∧ ∀ k ≠ n, t.link k = s.link k)) ∧
  (∀ s : State,
    let bad := fun t : State => t = (s.gatedAcc 4).emit (.smb none)
    (∀ code bytes ok, (code = 0x10 ∧ ok = true ∧ bytes.length = 3 ∧ leNat bytes % 4 = 0 →
        Yields (.smbSetPointer ⟨code, bytes⟩ ok) s fun t => t = { s with wrd.smbPtr := leNat bytes }.emit (.smb (some []))) ∧
      (code ≠ 0x10 ∨ ok = false ∨ bytes.length ≠ 3 ∨ leNat bytes % 4 ≠ 0 → Yields (.smbSetPointer ⟨code, bytes⟩ ok) s bad)) ∧
    (∀ bytes ok, (ok = true → bytes.length = 4 → Yields (.smbWrite bytes ok) s fun t =>
        ∃ u, u = s.bar0Write 4 s.wrd.smbPtr 4 (leNat bytes) ∧ t = { u with wrd.smbPtr := (u.wrd.smbPtr + 4) % 2 ^ 24 }.emit (.smb (some []))) ∧
      (ok = false ∨ bytes.length < 4 ∨ 32 < bytes.length ∨ bytes.length % 4 ≠ 0 → Yields (.smbWrite bytes ok) s bad)) ∧
    (∀ n ok, (ok = true → 4 ≤ n → n ≤ 32 → n % 4 = 0 → Yields (.smbRead n ok) s fun t =>
        ∃ d, d.length = n ∧ t.out = s.out ++ [.smb (some d)]) ∧
      (ok = true → n = 4 → Yields (.smbRead n ok) s fun t => t.wrd.smbPtr = (s.wrd.smbPtr + 4) % 2 ^ 24 ∧
        t.out = s.out ++ [.smb (some (s.bar0Read 4 s.wrd.smbPtr 4).2)]) ∧
      (ok = false ∨ n < 4 ∨ 32 < n ∨ n % 4 ≠ 0 → Yields (.smbRead n ok) s bad)) ∧
    (s.smbAlert = true → Yields .smbAlertResponse s fun t => ∃ b : Byte, b.toNat / 2 = 88 + s.pwr.straps.smb.toNat ∧
      t.out = s.out ++ [.smb (some [b])] ∧ t = { s with out := t.out, free := t.free }) ∧
    (s.smbAlert = false → Yields .smbAlertResponse s fun t => t = s.emit (.smb none)))

/-! ## Debug port and run control (22) -/

/-- R453 to R456, R471: an instruction that is available selects its data register and scans it; one that is not selects
bypass and is counted. (No start-up load waits for the end of a boundary-scan test.) -/
def Obligations.DebugInstructionsRun : Prop :=
  ∀ s : State, s.dbgUp = true → s.pwr.loadWait = false →
    let scanned := fun (i : Instr) (ir : Jtag) (n v : Nat) =>
      (s.available ir = true → Yields i s fun t => t = { s with dbg.ir := ir }.emit (.jtag n v)) ∧
      (s.available ir = false → Yields i s fun t =>
        t = { s with dbg := { s.dbg with ir := .bypass, refused := satInc s.dbg.refused } }.emit (.jtag 1 0))
    scanned .idcode .idcode 32 0x19612C35 ∧ scanned .bypass .bypass 1 0 ∧ scanned .clamp .clamp 1 0 ∧ scanned .highz .highz 1 0 ∧
    scanned .dbgStatus .dbgStatus 64 s.dbgStatus ∧
    (∀ pins scan i ir o, let lanes := Config.laneCells.map fun c => scan.getD c false
      -- EXTEST drives the pins as well, the AC tests the lane pins too
      (i, ir, o) ∈ [(Instr.extest pins scan, Jtag.extest, [Out.scanned scan]), (.samplePreload pins scan, .sample, []),
        (.extestPulse pins scan, .extestPulse, [.scanned scan, .scannedLanes false lanes]),
        (.extestTrain pins scan, .extestTrain, [.scanned scan, .scannedLanes true lanes])] →
      (s.available ir = true → Yields i s fun t => t = { s with
        dbg := { s.dbg with ir := ir, bsr := scan }, out := s.out ++ [.jtag pins.length (scanBits pins)] ++ o }) ∧
      (s.available ir = false → Yields i s fun t =>
        t = { s with dbg := { s.dbg with ir := .bypass, refused := satInc s.dbg.refused } }.emit (.jtag 1 0))) ∧
    (Yields .trstNReset s fun t => t = { s with dbg.ir := .idcode }) ∧
    (s.available .idcode = true ∧ s.available .bypass = true ∧ s.available .dbgStatus = true) ∧
    (s.available .dbgAccess = true ↔ s.pwr.mode ≠ .lockdown ∧ (s.sec.life = .blank ∨ s.sec.life = .opened ∨ s.pwr.mode = .service))

/-- R466 to R469: challenges, what a response that fails and one that passes leave, and the unlocking.
R470: the keys are programmed while BLANK or OPEN: the eFuse key once, the battery-backed one while VBAT is good. -/
def Obligations.UnlockingRuns : Prop :=
  (∀ (s : State) (h : HostId) (c : Cmd),
    let v := Config.challenge s.sec.chalSeq
    let drawn := { s.sec with chal := some v, chalSeq := s.sec.chalSeq + 1 }
    let inForce := s.sec.life = .sealed ∨ s.sec.life = .returned
    (inForce → Serves s h 0x0B01 (.debugChallenge h) c stOk [v.toNat % 2 ^ 64, v.toNat / 2 ^ 64] fun t => t.sec = drawn ∧ t.fab = s.fab) ∧
    (¬ inForce → TurnedAway s h 0x0B01 (.debugChallenge h) c stNotReady 0 ∧ TurnedAway s h 0x0B02 (.debugUnlock h) c stNotReady 0) ∧
    (s.dbgUp = true → s.pwr.loadWait = false → inForce → s.alive = true → Yields .dbgChallenge s fun t =>
      t = { s with sec := drawn, dbg.ir := .dbgChallenge }.emit (.jtag 128 v.toNat)) ∧
    (Yields .challengeLapse s fun t => t = { s with sec.chal := none }) ∧
    (∀ u b, inForce → s.pwr.mode = .run → s.pwr.entering = none → s.sec.verifying = none → readBlock s h c 0 224 = (u, .ok b) →
      (s.responseOk b = false → s.sec.failRun + 1 < 8) →
      Serves s h 0x0B02 (.debugUnlock h) c (if s.responseOk b then stQueued else stDenied) [] fun t =>
        if s.responseOk b then
          t.sec = { s.sec with chal := none, fails := 0, failRun := 0, verifying := some (some (c.bg h)) } ∧ t.mem.wiping = true ∧
            t.mem.pad = {} ∧ c.bg h ∈ t.wrd.bg ∧ t.pwr.mode = .run
        else t.sec = { s.sec with chal := none, fails := satInc s.sec.fails, failRun := s.sec.failRun + 1 } ∧ t.pwr = s.pwr) ∧
    (∀ b, s.dbgUp = true → s.pwr.loadWait = false → inForce → s.pwr.mode = .run → s.pwr.entering = none → s.sec.verifying = none →
      (s.responseOk b = false → s.sec.failRun + 1 < 8) → Yields (.dbgResponse b) s fun t =>
        if s.responseOk b then
          t.sec = { s.sec with chal := none, fails := 0, failRun := 0, verifying := some none } ∧ t.mem.wiping = true ∧ t.pwr = s.pwr
        else t = { s with
          sec := { s.sec with chal := none, fails := satInc s.sec.fails, failRun := s.sec.failRun + 1 }
          dbg := { s.dbg with ir := .dbgResponse, last := stDenied.setWidth 4 }, wrd := t.wrd, out := t.out } ∧
          t.wrd.windows.any (fun w => w.1 = 6 && w.2.1 = 0 && w.2.2.1 = 10) = true) ∧
    (∀ who, s.sec.verifying = some who → s.mem.wiping = false → s.pwr.mode = .run → s.pwr.entering = none → Yields .debugUnlockComplete s fun t =>
      t.pwr.mode = .service ∧ t.sec = { s.sec with verifying := none, keyRam := none, unlocked := true } ∧
      (∀ r < 256, (s.region r).world = true → (t.region r).stale = true) ∧ t.fab = s.fab ∧ (who = none → t.dbg.last = 0))) ∧
  (∀ (s : State) (key : BitVec 256),
    (∀ target, s.dbgUp = true → s.pwr.loadWait = false → s.pwr.mode ≠ .lockdown → s.sec.life = .blank ∨ s.sec.life = .opened →
      s.dbg.key = none → Yields (.keyProgram target key) s fun t =>
        t = { s with dbg := { s.dbg with ir := .keyProgram, key := some (target, key) } }) ∧
    (∀ target, s.dbgUp = true → s.pwr.loadWait = false → s.sec.life ≠ .blank → s.sec.life ≠ .opened →
      Yields (.keyProgram target key) s fun t => t.sec = s.sec ∧ t.dbg.key = s.dbg.key ∧ t.dbg.refused = satInc s.dbg.refused) ∧
    (∀ target, s.dbg.key = some (target, key) →
      let ends := fun (st : BitVec 8) (sec : Secure) => Yields .keyProgramDone s fun t =>
        t = { s with sec := sec, dbg := { s.dbg with key := none, last := st.setWidth 4 } }
      (target = 1 → s.sec.efuse = none → ends stOk { s.sec with efuse := some key }) ∧
      (target = 1 → s.sec.efuse.isSome = true → ends stBusy s.sec) ∧
      (target = 2 → s.sec.vbat = true → ends stOk { s.sec with keyRam := some key }) ∧
      (target = 2 → s.sec.vbat = false → ends stNotReady s.sec) ∧
      (target ≠ 1 → target ≠ 2 → ends stBadArg s.sec)) ∧
    (s.dbg.key = none → exec .keyProgramDone s = .next s))

/-- R460 to R464, R174, R465: halts, resumes and steps of engines and of the warden; with the port locked they do nothing. -/
def Obligations.RunControlActs : Prop :=
  ∀ (s : State) (e : EngineId), let x := s.eng e
    (s.dbgOpen = false → ∀ i ∈ [Instr.engineHaltRequest e, .engineResume e, .engineStep e, .wardenHalt, .wardenResume], exec i s = .next s) ∧
    (s.dbgOpen = true →
      (x.st = .idle → Yields (.engineHaltRequest e) s fun t => (t.eng e).st = .halted ∧ (t.eng e).cause = 1 ∧ t.fab = s.fab) ∧
      (x.st = .running → Yields (.engineHaltRequest e) s fun t =>
        t = s.setEng e { x with st := .haltPending, reqCause := 1 }) ∧
      -- a step ends as a step
      (x.st = .stepping → exec (.engineHaltRequest e) s = .next s) ∧
      (x.st = .halted → Yields (.engineResume e) s fun t => (t.eng e).st = (if x.task.isSome then .running else .idle) ∧
        (t.eng e).pc = x.pc ∧ (t.eng e).w = x.w ∧ (t.eng e).a = x.a ∧ (t.eng e).wdog = (s.row (engRow e)).period ∧ ∀ k ≠ e.val, t.eng k = s.eng k) ∧
      (x.st ≠ .halted → exec (.engineResume e) s = .next s ∧ exec (.engineStep e) s = .next s) ∧
      (x.st = .halted → x.task.isSome = true → Yields (.engineStep e) s fun t => (t.eng e).st = .stepping ∧
        (t.eng e).pc = x.pc ∧ ∀ k ≠ e.val, t.eng k = s.eng k) ∧
      (Yields .wardenHalt s fun t => t = { s with wrd.halted := true }) ∧
      (s.wrd.halted = true → Yields .wardenResume s fun t => t.wrd.halted = false ∧ t.stp = s.stp ∧ t.fab = s.fab)) ∧
    (x.st = .haltPending → s.alive = true → s.pwr.mode ≠ .hold → x.rep = none →
      (x.locked = false → Yields (.engineHalted e) s fun t => (t.eng e).st = .halted ∧ (t.eng e).cause = x.reqCause ∧
        (t.eng e).forced = false ∧ (t.eng e).pc = x.pc ∧ (t.eng e).task = x.task ∧ (t.eng e).prefetch = none) ∧
      (x.locked = true → exec (.engineHalted e) s = .next s ∧ Yields (.haltForceTimeout e) s fun t => (t.eng e).st = .halted ∧
        (t.eng e).forced = true ∧ (t.eng e).resv = none ∧ (t.eng e).locked = false)) ∧
    (x.xtrig = true → Yields .dbgHaltNLow s fun t => (x.st = .idle → (t.eng e).st = .halted) ∧
      (x.st = .running → (t.eng e).st = .haltPending) ∧ (x.st = .stepping → (t.eng e).st = .stepping))

/-- R457 to R459, R471: a scan of DBG_ACCESS captures what the last operation left and begins a new one; the operations of the
run-control, program-memory and warden spaces; a bare capture, an OP that is none (R457), an unused instruction code (R454). -/
def Obligations.DebugAccessRuns : Prop :=
  ∀ s : State, s.dbgUp = true → s.pwr.loadWait = false →
    (s.dbgOpen = true → ∀ addr data : BitVec 64,
      let a := if addr = BitVec.allOnes 64 then s.dbg.next else addr
      let u : BitVec 64 → State := fun next => { s with
        dbg := { s.dbg with ir := .dbgAccess, op := some a, next := next }
        out := s.out ++ [.jtag 132 s.dbg.captured] }
      (s.dbg.op = none →
        (Yields (.dbgAccessRead (.read addr)) s fun t => t = (u a).dbgRead a.toNat) ∧
        (Yields (.dbgAccessReadInc addr) s fun t => t = (u (a + 8)).dbgRead a.toNat) ∧
        (Yields (.dbgAccessWrite addr data) s fun t => t = (u a).dbgWrite a.toNat data) ∧
        (Yields (.dbgAccessWriteInc addr data) s fun t => t = (u (a + 8)).dbgWrite a.toNat data) ∧
        (∀ e k : Nat, e < 512 → k < 16 → a.toNat = 5 * 2 ^ 60 + e * 2 ^ 16 + 0x100 + 8 * k → (s.eng e).st = .halted →
          (Yields (.dbgAccessWrite addr data) s fun t => (t.eng e).w.get 0 k = data ∧ (∀ j ≠ e, t.eng j = s.eng j) ∧
            t.dbg.op = none ∧ t.dbg.addr = a ∧ t.dbg.status = 0) ∧
          (Yields (.dbgAccessRead (.read addr)) s fun t => t.dbg.data = (s.eng e).w.get 0 k ∧ t.stp = s.stp ∧ t.dbg.status = 0)) ∧
        (∀ e k : Nat, e < 512 → k < 16 → a.toNat = 5 * 2 ^ 60 + e * 2 ^ 16 + 0x100 + 8 * k → (s.eng e).st ≠ .halted →
          Yields (.dbgAccessWrite addr data) s fun t => t.stp = s.stp ∧ t.dbg.status = hsError.setWidth 4) ∧
        (∀ e k : Nat, e < 512 → k < 2048 → a.toNat = 6 * 2 ^ 60 + e * 2 ^ 16 + k → (s.eng e).st = .halted →
          Yields (.dbgAccessWrite addr data) s fun t => t.mem.pmem.get 0 (2048 * e + k) = data ∧
            (∀ j ≠ 2048 * e + k, t.mem.pmem.get 0 j = s.mem.pmem.get 0 j) ∧ t.dbg.status = 0) ∧
        (a.toNat = 7 * 2 ^ 60 → data.getLsbD 0 = true → Yields (.dbgAccessWrite addr data) s fun t => t.wrd.halted = true ∧ t.dbg.status = 0)) ∧
      (s.dbg.op.isSome = true → ∀ i ∈ [Instr.dbgAccessRead (.read addr), .dbgAccessWrite addr data, .dbgAccessReadInc addr, .dbgAccessWriteInc addr data],
        Yields i s fun t => t = { s with dbg.ir := .dbgAccess }.emit (.jtag 132 s.dbg.captured))) ∧
    -- an operation that is none, a capture alone, and a code of no instruction
    (s.dbgOpen = true → s.dbg.op = none → ∀ op (addr : BitVec 64), addr ≠ BitVec.allOnes 64 →
      Yields (.dbgAccessRead (.noOp op addr)) s fun t => t.dbg.status = hsRange.setWidth 4 ∧ t.dbg.addr = addr ∧ t.dbg.op = none ∧
        t.dbg.next = addr ∧ t.fab = s.fab ∧ t.stp = s.stp ∧ t.mem = s.mem) ∧
    (s.dbg.ir = .dbgAccess → Yields (.dbgAccessRead .capture) s fun t => t = s.emit (.jtag 132 s.dbg.captured)) ∧
    (∀ code, Yields (.dbgAccessRead (.noInstr code)) s fun t =>
      t = { s with dbg := { s.dbg with ir := .bypass, refused := satInc s.dbg.refused } }.emit (.jtag 1 0)) ∧
    (s.dbgOpen = false → ∀ addr data : BitVec 64,
      ∀ i ∈ [Instr.dbgAccessRead (.read addr), .dbgAccessWrite addr data, .dbgAccessReadInc addr, .dbgAccessWriteInc addr data],
        (s.dbg.op = none ∨ s.dbg.ir ≠ .dbgAccess → Yields i s fun t => t.dbg.refused = satInc s.dbg.refused ∧ t.fab = s.fab ∧
          t.stp = s.stp ∧ t.mem = s.mem ∧ t.hbm = s.hbm ∧ t.mb = s.mb ∧ (s.dbg.ir = .dbgAccess → t.dbg.status = hsDenied.setWidth 4 ∧
            t.dbg.op = none ∧ t.dbg.addr = if addr = BitVec.allOnes 64 then s.dbg.next else addr)) ∧
        -- while one is in progress a scan begins none
        (s.dbg.op.isSome = true → s.dbg.ir = .dbgAccess → Yields i s fun t => t = s.emit (.jtag 132 s.dbg.captured)))

/-! ## Rules over the whole machine and single rules (06, 16, 20, 21) -/

/-- R337, R338: the doorbell of the expected SEQ whose slot holds it is accepted, with the slot copied and MB_EXPECT_SEQ
raised; with 64 commands waiting it is held; another value, or another SEQ in the slot, is ignored and counted; in
LOCKDOWN every doorbell is dropped (R325).
R340 (executed once, whatever the doorbells do): a doorbell that has been accepted is not accepted a second time:
given again it changes neither the accepted commands nor MB_EXPECT_SEQ.
R338: a held doorbell is accepted as soon as one of the 64 commands starts; a second doorbell with its value while it
is held changes nothing. -/
def Obligations.DoorbellAcceptance : Prop :=
  (∀ (s : State) (h : HostId) (v : BitVec 32),
    (s.alive = false → exec (.mbDoorbell h v) s = .next s) ∧
    (s.alive = true → v = (s.mb h).expect → (s.mb h).slot v 0 = v → s.wrd.halted = false → (s.mb h).accepted.length < 64 →
      Yields (.mbDoorbell h v) s fun t => t = s.setMb h { s.mb h with
        accepted := (s.mb h).accepted ++ [s.slotCmd h v], expect := v + 1, heldBell := false }) ∧
    (s.alive = true → v = (s.mb h).expect → (s.mb h).slot v 0 = v → 64 ≤ (s.mb h).accepted.length →
      Yields (.mbDoorbell h v) s fun t => t = s.setMb h { s.mb h with heldBell := true }) ∧
    (s.alive = true → v ≠ (s.mb h).expect ∨ (s.mb h).slot v 0 ≠ v →
      Yields (.mbDoorbell h v) s fun t => t = s.setMb h { s.mb h with ignored := satInc (s.mb h).ignored })) ∧
  (∀ (s t u : State) (h : HostId) (v : BitVec 32), exec (.mbDoorbell h v) s = .next t → (t.mb h).expect = v + 1 →
    exec (.mbDoorbell h v) t = .next u → (u.mb h).accepted = (t.mb h).accepted ∧ (u.mb h).expect = (t.mb h).expect) ∧
  (∀ (s : State) (h : HostId) (v : BitVec 32), s.alive = true → s.wrd.halted = false → (s.mb h).heldBell = true →
    v = (s.mb h).expect → (s.mb h).slot v 0 = v →
    (64 ≤ (s.mb h).accepted.length → Yields (.mbDoorbell h v) s fun t => t.mb h = s.mb h) ∧
    (∀ c r, (s.mb h).accepted = c :: r → r.length < 64 → (s.mb h).running = none → (s.mb h).waiting = [] → s.blocked h c = false →
      Yields (.commandStart h) s fun t => (t.mb h).accepted = r ++ [s.slotCmd h v] ∧ (t.mb h).expect = v + 1 ∧
        (t.mb h).heldBell = false ∧ (t.mb h).ignored = (s.mb h).ignored))

/-- R127: a write to POP whose low 16 bits equal HEAD_TAG.SEQ while a word is presented removes and delivers that word; any
other write is ignored and counted. -/
def Obligations.WindowPopActs : Prop :=
  ∀ (s : State) (h : HostId) (n : WindowId) (q : QueueId) (sl : Nat) (v : BitVec 64), s.alive = true → s.pwr.mode ≠ .hold →
    s.window h n = some (q.val, sl, true) → reaches (s.hostWorld h) (s.qWorld q) = true → s.qCol q = .on →
    (s.qCfg q).cons = 2 → s.qEnabled q = true →
    ((s.queue q).head.isSome = true → v.setWidth 16 = (s.queue q).seq → Yields (.queueWindowPop h n v) s fun t =>
      t.queue q = (s.queue q).pop ∧ ∀ p ≠ q.val, t.queue p = s.queue p) ∧
    ((s.queue q).head = none ∨ v.setWidth 16 ≠ (s.queue q).seq → Yields (.queueWindowPop h n v) s fun t =>
      t.queue q = { s.queue q with popIgn := satInc (s.queue q).popIgn } ∧ (∀ p ≠ q.val, t.queue p = s.queue p) ∧ t.out = s.out)

/-- R101: entering HOLD puts every ON column into RETENTION; leaving it returns each column to the state it had; a column that
is OFF stays OFF. -/
def Obligations.ColumnsThroughHold : Prop :=
  ∀ (s t u v : State) (m : MeadowId), s.pwr.entering.isSome = true → s.pwr.mode ≠ .lockdown →
    exec .holdEntryComplete s = .next t → t.pwr.mode = .hold → s.pwr.mode ≠ .hold →
    ((s.mea m).col = .on → (t.mea m).col = .retention) ∧ ((s.mea m).col = .off → (t.mea m).col = .off) ∧
    ((u.mea m).colHold = (t.mea m).colHold → exec .holdExitResume u = .next v → u.pwr.mode = .hold → v.pwr.mode = .run →
      (v.mea m).col = (s.mea m).col)

/-- R443 to R446: no command changes the lifecycle state but the start-up's reading of the fuses; no command programs them but
the one that ends a LIFECYCLE_ADVANCE; and none begins one but the command of an authorised, permitted transition. -/
def Obligations.LifecycleChangesOnly : Prop :=
  ∀ (i : Instr) (s t : State), exec i s = .next t →
    (t.sec.life = s.sec.life ∨ (i = .scratchpadWipeDone false ∧ s.pwr.mode = .boot ∧ s.sec.fused = some t.sec.life)) ∧
    (t.sec.fused = s.sec.fused ∨ (i = .scratchpadWipeDone false ∧ t.sec.fused = none) ∨
      (i = .lifecycleFusesProgrammed ∧ ∃ b n x, s.sec.adv = some (b, n, x) ∧ t.sec.fused = some n)) ∧
    (t.sec.adv = s.sec.adv ∨ t.sec.adv = none ∨ ∃ b n x h, i = .lifecycleAdvance h ∧ t.sec.adv = some (b, n, x) ∧
      permitted s.sec.life n ∧ s.authorised x s.sec.life n = true)

/-- R451, R426: only a power-on reset leaves LOCKDOWN, and nothing that happens in LOCKDOWN changes the lifecycle state. -/
def Obligations.LockdownIsFinal : Prop :=
  ∀ (i : Instr) (s t : State), s.pwr.mode = .lockdown → exec i s = .next t → t.sec.life = s.sec.life ∧
    (t.pwr.mode = .lockdown ∨ (t.pwr.mode = .boot ∧ (i = .powerOnReset ∨ i = .railFail .aon ∨ i = .railFail .aux)))
end

