-- ==== Sys2Proof/Laws/Tab.lean ====
section
/-! SUPPORT. Laws of the sparse tables and the byte memories: what a read gives after a write, and that every operation keeps
the canonical form. -/

namespace Sys2Proof

/-! ## Entry lists -/

section Ents
variable {α : Type}

@[simp] theorem lookupEnt_insertEnt (k : Nat) (v : α) (l : List (Nat × α)) : lookupEnt k (insertEnt k v l) = some v := by
  induction l with
  | nil => simp [insertEnt, lookupEnt]
  | cons e r ih => obtain ⟨j, w⟩ := e; simp only [insertEnt]; split <;> [skip; split] <;> simp_all [lookupEnt]

theorem lookupEnt_insertEnt_ne {k j : Nat} (h : j ≠ k) (v : α) (l : List (Nat × α)) :
    lookupEnt j (insertEnt k v l) = lookupEnt j l := by
  induction l with
  | nil => simp [insertEnt, lookupEnt, h]
  | cons e r ih => obtain ⟨i, w⟩ := e; simp only [insertEnt]; split <;> [skip; split] <;> simp_all [lookupEnt]

@[simp] theorem lookupEnt_eraseEnt (k : Nat) (l : List (Nat × α)) : lookupEnt k (eraseEnt k l) = none := by
  induction l with
  | nil => rfl
  | cons e r ih =>
    obtain ⟨i, w⟩ := e; by_cases hi : i = k
    · simpa [eraseEnt, hi] using ih
    · simpa [eraseEnt, hi, lookupEnt, Ne.symm hi] using ih

theorem lookupEnt_filter {j : Nat} {p : Nat → Bool} (h : p j = true) (l : List (Nat × α)) :
    lookupEnt j (l.filter fun e => p e.1) = lookupEnt j l := by
  induction l with
  | nil => rfl
  | cons e r ih =>
    obtain ⟨i, w⟩ := e; by_cases hi : p i = true
    · simp [hi, lookupEnt, ih]
    · have : j ≠ i := by rintro rfl; exact hi h
      simp [hi, lookupEnt, this, ih]

theorem lookupEnt_filter_none {j : Nat} {p : Nat → Bool} (h : p j = false) (l : List (Nat × α)) :
    lookupEnt j (l.filter fun e => p e.1) = none := by
  induction l with
  | nil => rfl
  | cons e r ih =>
    obtain ⟨i, w⟩ := e; by_cases hi : p i = true
    · have : j ≠ i := by rintro rfl; simp [h] at hi
      simp [hi, lookupEnt, this, ih]
    · simp [hi, ih]

theorem lookupEnt_eraseEnt_ne {k j : Nat} (h : j ≠ k) (l : List (Nat × α)) : lookupEnt j (eraseEnt k l) = lookupEnt j l :=
  lookupEnt_filter (p := fun i => i != k) (by simpa using h) l

theorem mem_insertEnt {k : Nat} {v : α} {l : List (Nat × α)} {e : Nat × α} (h : e ∈ insertEnt k v l) : e = (k, v) ∨ e ∈ l := by
  induction l with
  | nil => simpa [insertEnt] using h
  | cons x r ih =>
    obtain ⟨j, w⟩ := x; simp only [insertEnt] at h
    split at h <;> [skip; split at h] <;> simp only [List.mem_cons] at h ⊢ <;> tauto

theorem rising_insertEnt (k : Nat) (v : α) {l : List (Nat × α)} (h : l.Pairwise fun a b => a.1 < b.1) :
    (insertEnt k v l).Pairwise fun a b => a.1 < b.1 := by
  induction l with
  | nil => simp [insertEnt]
  | cons x r ih =>
    obtain ⟨j, w⟩ := x
    obtain ⟨hj, hr⟩ := List.pairwise_cons.1 h
    simp only [insertEnt]; split <;> [skip; split] <;> rw [List.pairwise_cons]
    · refine ⟨fun e he => ?_, h⟩
      rcases List.mem_cons.1 he with rfl | he
      · assumption
      · have := hj e he; simp_all; omega
    · refine ⟨fun e he => ?_, hr⟩
      have := hj e he; simp_all
    · refine ⟨fun e he => ?_, ih hr⟩
      rcases mem_insertEnt he with rfl | he
      · simp_all; omega
      · exact hj e he

theorem canonEnts_iff [DecidableEq α] {d : α} {l : List (Nat × α)} :
    canonEnts d l = true ↔ (l.Pairwise fun a b => a.1 < b.1) ∧ ∀ e ∈ l, e.2 ≠ d := by simp [canonEnts]

theorem canonEnts_insertEnt [DecidableEq α] {d v : α} {l : List (Nat × α)} (k : Nat) (hv : v ≠ d) (h : canonEnts d l = true) :
    canonEnts d (insertEnt k v l) = true := by
  rw [canonEnts_iff] at h ⊢
  refine ⟨rising_insertEnt k v h.1, fun e he => ?_⟩
  rcases mem_insertEnt he with rfl | he
  · exact hv
  · exact h.2 e he

theorem canonEnts_filter [DecidableEq α] {d : α} {l : List (Nat × α)} (p : Nat × α → Bool) (h : canonEnts d l = true) :
    canonEnts d (l.filter p) = true := by
  rw [canonEnts_iff] at h ⊢
  exact ⟨h.1.filter p, fun e he => h.2 e (List.mem_of_mem_filter he)⟩

/-- A key below every listed one is not listed. -/
theorem lookupEnt_below {k : Nat} {l : List (Nat × α)} (h : ∀ e ∈ l, k < e.1) : lookupEnt k l = none := by
  induction l with
  | nil => rfl
  | cons x r ih =>
    obtain ⟨j, w⟩ := x
    have : k ≠ j := Nat.ne_of_lt (h _ List.mem_cons_self)
    simp [lookupEnt, this, ih fun e he => h e (List.mem_cons_of_mem _ he)]

/-- Two canonical lists that give every key the same value are equal. -/
theorem canonEnts_ext [DecidableEq α] {d : α} {l m : List (Nat × α)} (hl : canonEnts d l = true) (hm : canonEnts d m = true)
    (h : ∀ k, (lookupEnt k l).getD d = (lookupEnt k m).getD d) : l = m := by
  induction l generalizing m with
  | nil =>
    cases m with
    | nil => rfl
    | cons y t => have := h y.1; simp [lookupEnt] at this; exact absurd this.symm ((canonEnts_iff.1 hm).2 y List.mem_cons_self)
  | cons x r ih =>
    obtain ⟨hx, hr⟩ := List.pairwise_cons.1 (canonEnts_iff.1 hl).1
    have hxd := (canonEnts_iff.1 hl).2
    cases m with
    | nil => have := h x.1; simp [lookupEnt] at this; exact absurd this (hxd x List.mem_cons_self)
    | cons y t =>
      obtain ⟨hy, ht⟩ := List.pairwise_cons.1 (canonEnts_iff.1 hm).1
      have hyd := (canonEnts_iff.1 hm).2
      have below : ∀ {a b : Nat × α} {q : List (Nat × α)}, a.1 < b.1 → (∀ e ∈ q, b.1 < e.1) → a.2 ≠ d →
          (lookupEnt a.1 (a :: r)).getD d = (lookupEnt a.1 (b :: q)).getD d → False := by
        intro a b q hab hq had he
        rw [lookupEnt_below (l := b :: q) (by
          intro e he; rcases List.mem_cons.1 he with rfl | he
          · exact hab
          · exact hab.trans (hq e he))] at he
        exact had (by simpa [lookupEnt] using he)
      have hk : x.1 = y.1 := by
        rcases Nat.lt_trichotomy x.1 y.1 with hlt | he | hgt
        · exact absurd (h x.1) fun e => below hlt hy (hxd x List.mem_cons_self) e
        · exact he
        · refine absurd (h y.1) fun e => ?_
          rw [lookupEnt_below (l := x :: r) (by
            intro e he; rcases List.mem_cons.1 he with rfl | he
            · exact hgt
            · exact hgt.trans (hx e he))] at e
          exact hyd y List.mem_cons_self (by simpa [lookupEnt] using e.symm)
      have hv : x.2 = y.2 := by have := h x.1; rw [hk] at this; simpa [lookupEnt, ← hk] using this
      have hxy : x = y := Prod.ext hk hv
      subst hxy
      congr 1
      refine ih (canonEnts_iff.2 ⟨hr, fun e he => hxd e (List.mem_cons_of_mem _ he)⟩)
        (canonEnts_iff.2 ⟨ht, fun e he => hyd e (List.mem_cons_of_mem _ he)⟩) fun k => ?_
      by_cases hkx : k = x.1
      · rw [lookupEnt_below (by simpa [hkx] using hx), lookupEnt_below (by simpa [hkx] using hy)]
      · simpa [lookupEnt, hkx] using h k

end Ents

/-! ## Tables -/

section Tabs
variable {α : Type} [DecidableEq α] {d : α}

omit [DecidableEq α] in
@[simp] theorem Tab.get_empty (k : Nat) : Tab.get d ⟨[]⟩ k = d := rfl

@[simp] theorem Tab.get_set (t : Tab α) (k : Nat) (v : α) : (t.set d k v).get d k = v := by
  simp only [Tab.set, Tab.get]; split <;> simp_all

theorem Tab.get_set_ne {k j : Nat} (h : j ≠ k) (t : Tab α) (v : α) : (t.set d k v).get d j = t.get d j := by
  simp only [Tab.set, Tab.get]; split
  · rw [lookupEnt_eraseEnt_ne h]
  · rw [lookupEnt_insertEnt_ne h]

theorem Tab.get_set_eq (t : Tab α) (k j : Nat) (v : α) : (t.set d k v).get d j = if j = k then v else t.get d j := by
  split
  · subst_vars; simp
  · exact Tab.get_set_ne ‹_› t v

@[simp] theorem Tab.get_upd (t : Tab α) (k : Nat) (f : α → α) : (t.upd d k f).get d k = f (t.get d k) := by simp [Tab.upd]

theorem Tab.get_upd_ne {k j : Nat} (h : j ≠ k) (t : Tab α) (f : α → α) : (t.upd d k f).get d j = t.get d j :=
  Tab.get_set_ne h t _

omit [DecidableEq α] in
theorem Tab.get_drop (t : Tab α) (p : Nat → Bool) (k : Nat) : (t.drop p).get d k = if p k = true then d else t.get d k := by
  simp only [Tab.drop, Tab.get]; split
  · rw [lookupEnt_filter_none (p := fun i => !p i) (by simp_all)]; rfl
  · rw [lookupEnt_filter (p := fun i => !p i) (by simp_all)]

theorem Tab.wf_empty : Tab.wf d ⟨[]⟩ = true := rfl

theorem Tab.wf_set {t : Tab α} (h : t.wf d = true) (k : Nat) (v : α) : (t.set d k v).wf d = true := by
  simp only [Tab.set, Tab.wf] at h ⊢; split
  · exact canonEnts_filter _ h
  · exact canonEnts_insertEnt k ‹_› h

theorem Tab.wf_upd {t : Tab α} (h : t.wf d = true) (k : Nat) (f : α → α) : (t.upd d k f).wf d = true := Tab.wf_set h k _

theorem Tab.wf_setFrom {t : Tab α} (h : t.wf d = true) (k : Nat) (l : List α) : (t.setFrom d k l).wf d = true := by
  induction l generalizing t k with
  | nil => exact h
  | cons v r ih => exact ih (Tab.wf_set h k v) (k + 1)

theorem Tab.wf_drop {t : Tab α} (h : t.wf d = true) (p : Nat → Bool) : (t.drop p).wf d = true := canonEnts_filter _ h

/-- Canonical tables that read the same are the same data. -/
theorem Tab.ext_get {t u : Tab α} (ht : t.wf d = true) (hu : u.wf d = true) (h : ∀ k, t.get d k = u.get d k) : t = u := by
  cases t; cases u; congr; exact canonEnts_ext ht hu h

end Tabs

namespace Machine

/-! ## Byte memories -/

@[simp] theorem Mem.write_dflt (m : Mem) (a : Nat) (b : Byte) : (m.write a b).dflt = m.dflt := by
  simp only [Mem.write]; split <;> rfl

@[simp] theorem Mem.writeN_dflt (m : Mem) (a : Nat) (l : List Byte) : (m.writeN a l).dflt = m.dflt := by
  induction l generalizing m a with
  | nil => rfl
  | cons b r ih => simp [Mem.writeN, ih]

@[simp] theorem Mem.clear_dflt (m : Mem) (a n : Nat) : (m.clear a n).dflt = m.dflt := rfl

@[simp] theorem Mem.read_write (m : Mem) (a : Nat) (b : Byte) : (m.write a b).read a = b := by
  simp only [Mem.write, Mem.read]; split <;> simp_all

theorem Mem.read_write_ne {a c : Nat} (h : c ≠ a) (m : Mem) (b : Byte) : (m.write a b).read c = m.read c := by
  simp only [Mem.write, Mem.read]; split
  · simp [lookupEnt_eraseEnt_ne h]
  · simp [lookupEnt_insertEnt_ne h]

/-- A byte outside the bytes written reads as before. -/
theorem Mem.read_writeN_out {a c : Nat} (l : List Byte) (h : c < a ∨ a + l.length ≤ c) (m : Mem) : (m.writeN a l).read c = m.read c := by
  induction l generalizing m a with
  | nil => rfl
  | cons b r ih =>
    simp only [List.length_cons] at h
    rw [Mem.writeN, ih (by omega), Mem.read_write_ne (by omega)]

/-- A byte among those written reads as written. -/
theorem Mem.read_writeN (m : Mem) (a : Nat) (l : List Byte) (i : Nat) (h : i < l.length) : (m.writeN a l).read (a + i) = l[i] := by
  induction l generalizing m a i with
  | nil => simp at h
  | cons b r ih =>
    cases i with
    | zero => rw [Mem.writeN, Mem.read_writeN_out r (by omega)]; simp
    | succ j => rw [Mem.writeN, show a + (j + 1) = a + 1 + j by omega, ih]; rfl

theorem Mem.readN_length (m : Mem) (a n : Nat) : (m.readN a n).length = n := by
  induction n generalizing a with
  | zero => rfl
  | succ n ih => simp [Mem.readN, ih]

theorem Mem.read_clear (m : Mem) (a n c : Nat) : (m.clear a n).read c = if a ≤ c ∧ c < a + n then m.dflt else m.read c := by
  simp only [Mem.clear, Mem.read]; split
  · rw [lookupEnt_filter_none (p := fun i => decide (i < a) || decide (a + n ≤ i)) (by simp; omega)]; rfl
  · rw [lookupEnt_filter (p := fun i => decide (i < a) || decide (a + n ≤ i)) (by simp; omega)]

theorem Mem.wf_write {m : Mem} (h : m.wf = true) (a : Nat) (b : Byte) : (m.write a b).wf = true := by
  simp only [Mem.write, Mem.wf] at h ⊢; split
  · exact canonEnts_filter _ h
  · exact canonEnts_insertEnt a ‹_› h

theorem Mem.wf_writeN {m : Mem} (h : m.wf = true) (a : Nat) (l : List Byte) : (m.writeN a l).wf = true := by
  induction l generalizing m a with
  | nil => exact h
  | cons b r ih => exact ih (Mem.wf_write h a b) (a + 1)

theorem Mem.wf_writeBe {m : Mem} (h : m.wf = true) (a : Nat) (l : List Byte) (e : List Bool) : (m.writeBe a l e).wf = true := by
  induction l generalizing m a e with
  | nil => cases e <;> exact h
  | cons b r ih =>
    cases e with
    | nil => exact h
    | cons x q => simp only [Mem.writeBe]; split <;> [exact ih (Mem.wf_write h a b) _ _; exact ih h _ _]

theorem Mem.wf_clear {m : Mem} (h : m.wf = true) (a n : Nat) : (m.clear a n).wf = true := canonEnts_filter _ h

/-- Canonical memories that read the same are the same data. -/
theorem Mem.ext_read {m n : Mem} (hm : m.wf = true) (hn : n.wf = true) (hd : m.dflt = n.dflt) (h : ∀ a, m.read a = n.read a) : m = n := by
  cases m; cases n; simp only [Mem.wf, Mem.read] at hm hn h hd; subst hd; congr; exact canonEnts_ext hm hn h

/-! ## Counters that saturate -/

theorem satInc_toNat {n : Nat} (c : BitVec n) : (satInc c).toNat = min (c.toNat + 1) (2 ^ n - 1) := by
  unfold satInc; split
  · subst_vars; simp
  · have h : c.toNat ≠ 2 ^ n - 1 := fun e => ‹¬ _› (BitVec.eq_of_toNat_eq (by simpa using e))
    have := c.isLt
    cases n with
    | zero => simp_all
    | succ n =>
      have h1 : BitVec.toNat (1 : BitVec (n + 1)) = 1 := by simp
      rw [BitVec.toNat_add, h1, Nat.mod_eq_of_lt (by omega)]; omega

end Machine
end Sys2Proof
end

