-- ==== Sys2Proof/Laws/State.lean ====
section
/-! SUPPORT. What each named update of the state leaves in each of its fields: one lemma per field, true by unfolding. Of the
field that an update changes, the lemma gives the new contents; `u_setU` reads back the unit written and `u_setU_ne` the others. -/

namespace Sys2Proof.Machine

/-! ## setMb -/

section
variable (s : State) (h : Nat) (m : Mbox)
@[simp] theorem State.setMb_pending : (s.setMb h m).pending = s.pending := rfl
@[simp] theorem State.setMb_tl : (s.setMb h m).tl = s.tl := rfl
@[simp] theorem State.setMb_fab : (s.setMb h m).fab = s.fab := rfl
@[simp] theorem State.setMb_que : (s.setMb h m).que = s.que := rfl
@[simp] theorem State.setMb_mem : (s.setMb h m).mem = s.mem := rfl
@[simp] theorem State.setMb_stp : (s.setMb h m).stp = s.stp := rfl
@[simp] theorem State.setMb_hg : (s.setMb h m).hg = s.hg := rfl
@[simp] theorem State.setMb_pool : (s.setMb h m).pool = s.pool := rfl
@[simp] theorem State.setMb_hbm : (s.setMb h m).hbm = s.hbm := rfl
@[simp] theorem State.setMb_scrim : (s.setMb h m).scrim = s.scrim := rfl
@[simp] theorem State.setMb_net : (s.setMb h m).net = s.net := rfl
@[simp] theorem State.setMb_pcie : (s.setMb h m).pcie = s.pcie := rfl
@[simp] theorem State.setMb_ldr : (s.setMb h m).ldr = s.ldr := rfl
@[simp] theorem State.setMb_scr : (s.setMb h m).scr = s.scr := rfl
@[simp] theorem State.setMb_clk : (s.setMb h m).clk = s.clk := rfl
@[simp] theorem State.setMb_pwr : (s.setMb h m).pwr = s.pwr := rfl
@[simp] theorem State.setMb_sec : (s.setMb h m).sec = s.sec := rfl
@[simp] theorem State.setMb_dbg : (s.setMb h m).dbg = s.dbg := rfl
@[simp] theorem State.setMb_io : (s.setMb h m).io = s.io := rfl
@[simp] theorem State.setMb_free : (s.setMb h m).free = s.free := rfl
@[simp] theorem State.setMb_out : (s.setMb h m).out = s.out := rfl
@[simp] theorem State.setMb_wrd : (s.setMb h m).wrd = { s.wrd with mb := s.wrd.mb.set {} h m } := rfl
@[simp] theorem State.mb_setMb_self : (s.setMb h m).mb h = m := Tab.get_set _ _ _
theorem State.mb_setMb_ne {j : Nat} (hj : j ≠ h) : (s.setMb h m).mb j = s.mb j := Tab.get_set_ne hj _ _
end

/-! ## setMea -/

section
variable (s : State) (m : Nat) (x : Meadow)
@[simp] theorem State.setMea_pending : (s.setMea m x).pending = s.pending := rfl
@[simp] theorem State.setMea_tl : (s.setMea m x).tl = s.tl := rfl
@[simp] theorem State.setMea_que : (s.setMea m x).que = s.que := rfl
@[simp] theorem State.setMea_mem : (s.setMea m x).mem = s.mem := rfl
@[simp] theorem State.setMea_stp : (s.setMea m x).stp = s.stp := rfl
@[simp] theorem State.setMea_hg : (s.setMea m x).hg = s.hg := rfl
@[simp] theorem State.setMea_pool : (s.setMea m x).pool = s.pool := rfl
@[simp] theorem State.setMea_hbm : (s.setMea m x).hbm = s.hbm := rfl
@[simp] theorem State.setMea_scrim : (s.setMea m x).scrim = s.scrim := rfl
@[simp] theorem State.setMea_net : (s.setMea m x).net = s.net := rfl
@[simp] theorem State.setMea_pcie : (s.setMea m x).pcie = s.pcie := rfl
@[simp] theorem State.setMea_wrd : (s.setMea m x).wrd = s.wrd := rfl
@[simp] theorem State.setMea_ldr : (s.setMea m x).ldr = s.ldr := rfl
@[simp] theorem State.setMea_scr : (s.setMea m x).scr = s.scr := rfl
@[simp] theorem State.setMea_clk : (s.setMea m x).clk = s.clk := rfl
@[simp] theorem State.setMea_pwr : (s.setMea m x).pwr = s.pwr := rfl
@[simp] theorem State.setMea_sec : (s.setMea m x).sec = s.sec := rfl
@[simp] theorem State.setMea_dbg : (s.setMea m x).dbg = s.dbg := rfl
@[simp] theorem State.setMea_io : (s.setMea m x).io = s.io := rfl
@[simp] theorem State.setMea_free : (s.setMea m x).free = s.free := rfl
@[simp] theorem State.setMea_out : (s.setMea m x).out = s.out := rfl
@[simp] theorem State.setMea_fab : (s.setMea m x).fab = s.fab.set {} m x := rfl
@[simp] theorem State.mea_setMea_self : (s.setMea m x).mea m = x := Tab.get_set _ _ _
theorem State.mea_setMea_ne {j : Nat} (hj : j ≠ m) : (s.setMea m x).mea j = s.mea j := Tab.get_set_ne hj _ _
end

/-! ## setCue -/

section
variable (s : State) (k : Nat) (c : Cue)
@[simp] theorem State.setCue_pending : (s.setCue k c).pending = s.pending := rfl
@[simp] theorem State.setCue_fab : (s.setCue k c).fab = s.fab := rfl
@[simp] theorem State.setCue_que : (s.setCue k c).que = s.que := rfl
@[simp] theorem State.setCue_mem : (s.setCue k c).mem = s.mem := rfl
@[simp] theorem State.setCue_stp : (s.setCue k c).stp = s.stp := rfl
@[simp] theorem State.setCue_hg : (s.setCue k c).hg = s.hg := rfl
@[simp] theorem State.setCue_pool : (s.setCue k c).pool = s.pool := rfl
@[simp] theorem State.setCue_hbm : (s.setCue k c).hbm = s.hbm := rfl
@[simp] theorem State.setCue_scrim : (s.setCue k c).scrim = s.scrim := rfl
@[simp] theorem State.setCue_net : (s.setCue k c).net = s.net := rfl
@[simp] theorem State.setCue_pcie : (s.setCue k c).pcie = s.pcie := rfl
@[simp] theorem State.setCue_wrd : (s.setCue k c).wrd = s.wrd := rfl
@[simp] theorem State.setCue_ldr : (s.setCue k c).ldr = s.ldr := rfl
@[simp] theorem State.setCue_scr : (s.setCue k c).scr = s.scr := rfl
@[simp] theorem State.setCue_clk : (s.setCue k c).clk = s.clk := rfl
@[simp] theorem State.setCue_pwr : (s.setCue k c).pwr = s.pwr := rfl
@[simp] theorem State.setCue_sec : (s.setCue k c).sec = s.sec := rfl
@[simp] theorem State.setCue_dbg : (s.setCue k c).dbg = s.dbg := rfl
@[simp] theorem State.setCue_io : (s.setCue k c).io = s.io := rfl
@[simp] theorem State.setCue_free : (s.setCue k c).free = s.free := rfl
@[simp] theorem State.setCue_out : (s.setCue k c).out = s.out := rfl
@[simp] theorem State.setCue_tl : (s.setCue k c).tl = { s.tl with cues := s.tl.cues.set {} k c } := rfl
@[simp] theorem State.cue_setCue_self : (s.setCue k c).cue k = c := Tab.get_set _ _ _
theorem State.cue_setCue_ne {j : Nat} (hj : j ≠ k) : (s.setCue k c).cue j = s.cue j := Tab.get_set_ne hj _ _
end

/-! ## setQueue -/

section
variable (s : State) (q : Nat) (x : Queue)
@[simp] theorem State.setQueue_pending : (s.setQueue q x).pending = s.pending := rfl
@[simp] theorem State.setQueue_tl : (s.setQueue q x).tl = s.tl := rfl
@[simp] theorem State.setQueue_fab : (s.setQueue q x).fab = s.fab := rfl
@[simp] theorem State.setQueue_mem : (s.setQueue q x).mem = s.mem := rfl
@[simp] theorem State.setQueue_stp : (s.setQueue q x).stp = s.stp := rfl
@[simp] theorem State.setQueue_hg : (s.setQueue q x).hg = s.hg := rfl
@[simp] theorem State.setQueue_pool : (s.setQueue q x).pool = s.pool := rfl
@[simp] theorem State.setQueue_hbm : (s.setQueue q x).hbm = s.hbm := rfl
@[simp] theorem State.setQueue_scrim : (s.setQueue q x).scrim = s.scrim := rfl
@[simp] theorem State.setQueue_net : (s.setQueue q x).net = s.net := rfl
@[simp] theorem State.setQueue_pcie : (s.setQueue q x).pcie = s.pcie := rfl
@[simp] theorem State.setQueue_wrd : (s.setQueue q x).wrd = s.wrd := rfl
@[simp] theorem State.setQueue_ldr : (s.setQueue q x).ldr = s.ldr := rfl
@[simp] theorem State.setQueue_scr : (s.setQueue q x).scr = s.scr := rfl
@[simp] theorem State.setQueue_clk : (s.setQueue q x).clk = s.clk := rfl
@[simp] theorem State.setQueue_pwr : (s.setQueue q x).pwr = s.pwr := rfl
@[simp] theorem State.setQueue_sec : (s.setQueue q x).sec = s.sec := rfl
@[simp] theorem State.setQueue_dbg : (s.setQueue q x).dbg = s.dbg := rfl
@[simp] theorem State.setQueue_io : (s.setQueue q x).io = s.io := rfl
@[simp] theorem State.setQueue_free : (s.setQueue q x).free = s.free := rfl
@[simp] theorem State.setQueue_out : (s.setQueue q x).out = s.out := rfl
@[simp] theorem State.setQueue_que : (s.setQueue q x).que = { s.que with q := s.que.q.set {} q x } := rfl
@[simp] theorem State.queue_setQueue_self : (s.setQueue q x).queue q = x := Tab.get_set _ _ _
theorem State.queue_setQueue_ne {j : Nat} (hj : j ≠ q) : (s.setQueue q x).queue j = s.queue j := Tab.get_set_ne hj _ _
end

/-! ## setEng -/

section
variable (s : State) (e : Nat) (x : Engine)
@[simp] theorem State.setEng_pending : (s.setEng e x).pending = s.pending := rfl
@[simp] theorem State.setEng_tl : (s.setEng e x).tl = s.tl := rfl
@[simp] theorem State.setEng_fab : (s.setEng e x).fab = s.fab := rfl
@[simp] theorem State.setEng_que : (s.setEng e x).que = s.que := rfl
@[simp] theorem State.setEng_mem : (s.setEng e x).mem = s.mem := rfl
@[simp] theorem State.setEng_hg : (s.setEng e x).hg = s.hg := rfl
@[simp] theorem State.setEng_pool : (s.setEng e x).pool = s.pool := rfl
@[simp] theorem State.setEng_hbm : (s.setEng e x).hbm = s.hbm := rfl
@[simp] theorem State.setEng_scrim : (s.setEng e x).scrim = s.scrim := rfl
@[simp] theorem State.setEng_net : (s.setEng e x).net = s.net := rfl
@[simp] theorem State.setEng_pcie : (s.setEng e x).pcie = s.pcie := rfl
@[simp] theorem State.setEng_wrd : (s.setEng e x).wrd = s.wrd := rfl
@[simp] theorem State.setEng_ldr : (s.setEng e x).ldr = s.ldr := rfl
@[simp] theorem State.setEng_scr : (s.setEng e x).scr = s.scr := rfl
@[simp] theorem State.setEng_clk : (s.setEng e x).clk = s.clk := rfl
@[simp] theorem State.setEng_pwr : (s.setEng e x).pwr = s.pwr := rfl
@[simp] theorem State.setEng_sec : (s.setEng e x).sec = s.sec := rfl
@[simp] theorem State.setEng_dbg : (s.setEng e x).dbg = s.dbg := rfl
@[simp] theorem State.setEng_io : (s.setEng e x).io = s.io := rfl
@[simp] theorem State.setEng_free : (s.setEng e x).free = s.free := rfl
@[simp] theorem State.setEng_out : (s.setEng e x).out = s.out := rfl
@[simp] theorem State.setEng_stp : (s.setEng e x).stp = { s.stp with eng := s.stp.eng.set {} e x } := rfl
@[simp] theorem State.eng_setEng_self : (s.setEng e x).eng e = x := Tab.get_set _ _ _
theorem State.eng_setEng_ne {j : Nat} (hj : j ≠ e) : (s.setEng e x).eng j = s.eng j := Tab.get_set_ne hj _ _
end

/-! ## setRow -/

section
variable (s : State) (r : Nat) (x : Row)
@[simp] theorem State.setRow_pending : (s.setRow r x).pending = s.pending := rfl
@[simp] theorem State.setRow_tl : (s.setRow r x).tl = s.tl := rfl
@[simp] theorem State.setRow_fab : (s.setRow r x).fab = s.fab := rfl
@[simp] theorem State.setRow_que : (s.setRow r x).que = s.que := rfl
@[simp] theorem State.setRow_mem : (s.setRow r x).mem = s.mem := rfl
@[simp] theorem State.setRow_hg : (s.setRow r x).hg = s.hg := rfl
@[simp] theorem State.setRow_pool : (s.setRow r x).pool = s.pool := rfl
@[simp] theorem State.setRow_hbm : (s.setRow r x).hbm = s.hbm := rfl
@[simp] theorem State.setRow_scrim : (s.setRow r x).scrim = s.scrim := rfl
@[simp] theorem State.setRow_net : (s.setRow r x).net = s.net := rfl
@[simp] theorem State.setRow_pcie : (s.setRow r x).pcie = s.pcie := rfl
@[simp] theorem State.setRow_wrd : (s.setRow r x).wrd = s.wrd := rfl
@[simp] theorem State.setRow_ldr : (s.setRow r x).ldr = s.ldr := rfl
@[simp] theorem State.setRow_scr : (s.setRow r x).scr = s.scr := rfl
@[simp] theorem State.setRow_clk : (s.setRow r x).clk = s.clk := rfl
@[simp] theorem State.setRow_pwr : (s.setRow r x).pwr = s.pwr := rfl
@[simp] theorem State.setRow_sec : (s.setRow r x).sec = s.sec := rfl
@[simp] theorem State.setRow_dbg : (s.setRow r x).dbg = s.dbg := rfl
@[simp] theorem State.setRow_io : (s.setRow r x).io = s.io := rfl
@[simp] theorem State.setRow_free : (s.setRow r x).free = s.free := rfl
@[simp] theorem State.setRow_out : (s.setRow r x).out = s.out := rfl
@[simp] theorem State.setRow_stp : (s.setRow r x).stp = { s.stp with row := s.stp.row.set {} r x } := rfl
@[simp] theorem State.row_setRow_self : (s.setRow r x).row r = x := Tab.get_set _ _ _
theorem State.row_setRow_ne {j : Nat} (hj : j ≠ r) : (s.setRow r x).row j = s.row j := Tab.get_set_ne hj _ _
end

/-! ## setEnt -/

section
variable (s : State) (n : Nat) (x : Entry)
@[simp] theorem State.setEnt_pending : (s.setEnt n x).pending = s.pending := rfl
@[simp] theorem State.setEnt_tl : (s.setEnt n x).tl = s.tl := rfl
@[simp] theorem State.setEnt_fab : (s.setEnt n x).fab = s.fab := rfl
@[simp] theorem State.setEnt_que : (s.setEnt n x).que = s.que := rfl
@[simp] theorem State.setEnt_mem : (s.setEnt n x).mem = s.mem := rfl
@[simp] theorem State.setEnt_hg : (s.setEnt n x).hg = s.hg := rfl
@[simp] theorem State.setEnt_pool : (s.setEnt n x).pool = s.pool := rfl
@[simp] theorem State.setEnt_hbm : (s.setEnt n x).hbm = s.hbm := rfl
@[simp] theorem State.setEnt_scrim : (s.setEnt n x).scrim = s.scrim := rfl
@[simp] theorem State.setEnt_net : (s.setEnt n x).net = s.net := rfl
@[simp] theorem State.setEnt_pcie : (s.setEnt n x).pcie = s.pcie := rfl
@[simp] theorem State.setEnt_wrd : (s.setEnt n x).wrd = s.wrd := rfl
@[simp] theorem State.setEnt_ldr : (s.setEnt n x).ldr = s.ldr := rfl
@[simp] theorem State.setEnt_scr : (s.setEnt n x).scr = s.scr := rfl
@[simp] theorem State.setEnt_clk : (s.setEnt n x).clk = s.clk := rfl
@[simp] theorem State.setEnt_pwr : (s.setEnt n x).pwr = s.pwr := rfl
@[simp] theorem State.setEnt_sec : (s.setEnt n x).sec = s.sec := rfl
@[simp] theorem State.setEnt_dbg : (s.setEnt n x).dbg = s.dbg := rfl
@[simp] theorem State.setEnt_io : (s.setEnt n x).io = s.io := rfl
@[simp] theorem State.setEnt_free : (s.setEnt n x).free = s.free := rfl
@[simp] theorem State.setEnt_out : (s.setEnt n x).out = s.out := rfl
@[simp] theorem State.setEnt_stp : (s.setEnt n x).stp = { s.stp with ent := s.stp.ent.set {} n x } := rfl
@[simp] theorem State.ent_setEnt_self : (s.setEnt n x).ent n = x := Tab.get_set _ _ _
theorem State.ent_setEnt_ne {j : Nat} (hj : j ≠ n) : (s.setEnt n x).ent j = s.ent j := Tab.get_set_ne hj _ _
end

/-! ## setSch -/

section
variable (s : State) (h : Nat) (x : Sched)
@[simp] theorem State.setSch_pending : (s.setSch h x).pending = s.pending := rfl
@[simp] theorem State.setSch_tl : (s.setSch h x).tl = s.tl := rfl
@[simp] theorem State.setSch_fab : (s.setSch h x).fab = s.fab := rfl
@[simp] theorem State.setSch_que : (s.setSch h x).que = s.que := rfl
@[simp] theorem State.setSch_mem : (s.setSch h x).mem = s.mem := rfl
@[simp] theorem State.setSch_hg : (s.setSch h x).hg = s.hg := rfl
@[simp] theorem State.setSch_pool : (s.setSch h x).pool = s.pool := rfl
@[simp] theorem State.setSch_hbm : (s.setSch h x).hbm = s.hbm := rfl
@[simp] theorem State.setSch_scrim : (s.setSch h x).scrim = s.scrim := rfl
@[simp] theorem State.setSch_net : (s.setSch h x).net = s.net := rfl
@[simp] theorem State.setSch_pcie : (s.setSch h x).pcie = s.pcie := rfl
@[simp] theorem State.setSch_wrd : (s.setSch h x).wrd = s.wrd := rfl
@[simp] theorem State.setSch_ldr : (s.setSch h x).ldr = s.ldr := rfl
@[simp] theorem State.setSch_scr : (s.setSch h x).scr = s.scr := rfl
@[simp] theorem State.setSch_clk : (s.setSch h x).clk = s.clk := rfl
@[simp] theorem State.setSch_pwr : (s.setSch h x).pwr = s.pwr := rfl
@[simp] theorem State.setSch_sec : (s.setSch h x).sec = s.sec := rfl
@[simp] theorem State.setSch_dbg : (s.setSch h x).dbg = s.dbg := rfl
@[simp] theorem State.setSch_io : (s.setSch h x).io = s.io := rfl
@[simp] theorem State.setSch_free : (s.setSch h x).free = s.free := rfl
@[simp] theorem State.setSch_out : (s.setSch h x).out = s.out := rfl
@[simp] theorem State.setSch_stp : (s.setSch h x).stp = { s.stp with sch := s.stp.sch.set {} h x } := rfl
@[simp] theorem State.sch_setSch_self : (s.setSch h x).sch h = x := Tab.get_set _ _ _
theorem State.sch_setSch_ne {j : Nat} (hj : j ≠ h) : (s.setSch h x).sch j = s.sch j := Tab.get_set_ne hj _ _
end

/-! ## setBuf -/

section
variable (s : State) (h : Nat) (b : Option Buf)
@[simp] theorem State.setBuf_pending : (s.setBuf h b).pending = s.pending := rfl
@[simp] theorem State.setBuf_tl : (s.setBuf h b).tl = s.tl := rfl
@[simp] theorem State.setBuf_fab : (s.setBuf h b).fab = s.fab := rfl
@[simp] theorem State.setBuf_que : (s.setBuf h b).que = s.que := rfl
@[simp] theorem State.setBuf_mem : (s.setBuf h b).mem = s.mem := rfl
@[simp] theorem State.setBuf_stp : (s.setBuf h b).stp = s.stp := rfl
@[simp] theorem State.setBuf_hg : (s.setBuf h b).hg = s.hg := rfl
@[simp] theorem State.setBuf_hbm : (s.setBuf h b).hbm = s.hbm := rfl
@[simp] theorem State.setBuf_scrim : (s.setBuf h b).scrim = s.scrim := rfl
@[simp] theorem State.setBuf_net : (s.setBuf h b).net = s.net := rfl
@[simp] theorem State.setBuf_pcie : (s.setBuf h b).pcie = s.pcie := rfl
@[simp] theorem State.setBuf_wrd : (s.setBuf h b).wrd = s.wrd := rfl
@[simp] theorem State.setBuf_ldr : (s.setBuf h b).ldr = s.ldr := rfl
@[simp] theorem State.setBuf_scr : (s.setBuf h b).scr = s.scr := rfl
@[simp] theorem State.setBuf_clk : (s.setBuf h b).clk = s.clk := rfl
@[simp] theorem State.setBuf_pwr : (s.setBuf h b).pwr = s.pwr := rfl
@[simp] theorem State.setBuf_sec : (s.setBuf h b).sec = s.sec := rfl
@[simp] theorem State.setBuf_dbg : (s.setBuf h b).dbg = s.dbg := rfl
@[simp] theorem State.setBuf_io : (s.setBuf h b).io = s.io := rfl
@[simp] theorem State.setBuf_free : (s.setBuf h b).free = s.free := rfl
@[simp] theorem State.setBuf_out : (s.setBuf h b).out = s.out := rfl
@[simp] theorem State.setBuf_pool : (s.setBuf h b).pool = { s.pool with buf := s.pool.buf.set none h b } := rfl
@[simp] theorem State.buf_setBuf_self : (s.setBuf h b).buf h = b := Tab.get_set _ _ _
theorem State.buf_setBuf_ne {j : Nat} (hj : j ≠ h) : (s.setBuf h b).buf j = s.buf j := Tab.get_set_ne hj _ _
end

/-! ## setPch -/

section
variable (s : State) (p : Nat) (x : Pch)
@[simp] theorem State.setPch_pending : (s.setPch p x).pending = s.pending := rfl
@[simp] theorem State.setPch_tl : (s.setPch p x).tl = s.tl := rfl
@[simp] theorem State.setPch_fab : (s.setPch p x).fab = s.fab := rfl
@[simp] theorem State.setPch_que : (s.setPch p x).que = s.que := rfl
@[simp] theorem State.setPch_mem : (s.setPch p x).mem = s.mem := rfl
@[simp] theorem State.setPch_stp : (s.setPch p x).stp = s.stp := rfl
@[simp] theorem State.setPch_hg : (s.setPch p x).hg = s.hg := rfl
@[simp] theorem State.setPch_pool : (s.setPch p x).pool = s.pool := rfl
@[simp] theorem State.setPch_scrim : (s.setPch p x).scrim = s.scrim := rfl
@[simp] theorem State.setPch_net : (s.setPch p x).net = s.net := rfl
@[simp] theorem State.setPch_pcie : (s.setPch p x).pcie = s.pcie := rfl
@[simp] theorem State.setPch_wrd : (s.setPch p x).wrd = s.wrd := rfl
@[simp] theorem State.setPch_ldr : (s.setPch p x).ldr = s.ldr := rfl
@[simp] theorem State.setPch_scr : (s.setPch p x).scr = s.scr := rfl
@[simp] theorem State.setPch_clk : (s.setPch p x).clk = s.clk := rfl
@[simp] theorem State.setPch_pwr : (s.setPch p x).pwr = s.pwr := rfl
@[simp] theorem State.setPch_sec : (s.setPch p x).sec = s.sec := rfl
@[simp] theorem State.setPch_dbg : (s.setPch p x).dbg = s.dbg := rfl
@[simp] theorem State.setPch_io : (s.setPch p x).io = s.io := rfl
@[simp] theorem State.setPch_free : (s.setPch p x).free = s.free := rfl
@[simp] theorem State.setPch_out : (s.setPch p x).out = s.out := rfl
@[simp] theorem State.setPch_hbm : (s.setPch p x).hbm = { s.hbm with pch := s.hbm.pch.set {} p x } := rfl
@[simp] theorem State.pch_setPch_self : (s.setPch p x).pch p = x := Tab.get_set _ _ _
theorem State.pch_setPch_ne {j : Nat} (hj : j ≠ p) : (s.setPch p x).pch j = s.pch j := Tab.get_set_ne hj _ _
end

/-! ## setRegion -/

section
variable (s : State) (r : Nat) (x : Region)
@[simp] theorem State.setRegion_pending : (s.setRegion r x).pending = s.pending := rfl
@[simp] theorem State.setRegion_tl : (s.setRegion r x).tl = s.tl := rfl
@[simp] theorem State.setRegion_fab : (s.setRegion r x).fab = s.fab := rfl
@[simp] theorem State.setRegion_que : (s.setRegion r x).que = s.que := rfl
@[simp] theorem State.setRegion_mem : (s.setRegion r x).mem = s.mem := rfl
@[simp] theorem State.setRegion_stp : (s.setRegion r x).stp = s.stp := rfl
@[simp] theorem State.setRegion_hg : (s.setRegion r x).hg = s.hg := rfl
@[simp] theorem State.setRegion_pool : (s.setRegion r x).pool = s.pool := rfl
@[simp] theorem State.setRegion_hbm : (s.setRegion r x).hbm = s.hbm := rfl
@[simp] theorem State.setRegion_net : (s.setRegion r x).net = s.net := rfl
@[simp] theorem State.setRegion_pcie : (s.setRegion r x).pcie = s.pcie := rfl
@[simp] theorem State.setRegion_wrd : (s.setRegion r x).wrd = s.wrd := rfl
@[simp] theorem State.setRegion_ldr : (s.setRegion r x).ldr = s.ldr := rfl
@[simp] theorem State.setRegion_scr : (s.setRegion r x).scr = s.scr := rfl
@[simp] theorem State.setRegion_clk : (s.setRegion r x).clk = s.clk := rfl
@[simp] theorem State.setRegion_pwr : (s.setRegion r x).pwr = s.pwr := rfl
@[simp] theorem State.setRegion_sec : (s.setRegion r x).sec = s.sec := rfl
@[simp] theorem State.setRegion_dbg : (s.setRegion r x).dbg = s.dbg := rfl
@[simp] theorem State.setRegion_io : (s.setRegion r x).io = s.io := rfl
@[simp] theorem State.setRegion_free : (s.setRegion r x).free = s.free := rfl
@[simp] theorem State.setRegion_out : (s.setRegion r x).out = s.out := rfl
@[simp] theorem State.setRegion_scrim : (s.setRegion r x).scrim = { s.scrim with region := s.scrim.region.set {} r x } := rfl
@[simp] theorem State.region_setRegion_self : (s.setRegion r x).region r = x := Tab.get_set _ _ _
theorem State.region_setRegion_ne {j : Nat} (hj : j ≠ r) : (s.setRegion r x).region j = s.region j := Tab.get_set_ne hj _ _
end

/-! ## setCtx -/

section
variable (s : State) (c : Nat) (x : Ctx)
@[simp] theorem State.setCtx_pending : (s.setCtx c x).pending = s.pending := rfl
@[simp] theorem State.setCtx_tl : (s.setCtx c x).tl = s.tl := rfl
@[simp] theorem State.setCtx_fab : (s.setCtx c x).fab = s.fab := rfl
@[simp] theorem State.setCtx_que : (s.setCtx c x).que = s.que := rfl
@[simp] theorem State.setCtx_mem : (s.setCtx c x).mem = s.mem := rfl
@[simp] theorem State.setCtx_stp : (s.setCtx c x).stp = s.stp := rfl
@[simp] theorem State.setCtx_hg : (s.setCtx c x).hg = s.hg := rfl
@[simp] theorem State.setCtx_pool : (s.setCtx c x).pool = s.pool := rfl
@[simp] theorem State.setCtx_hbm : (s.setCtx c x).hbm = s.hbm := rfl
@[simp] theorem State.setCtx_scrim : (s.setCtx c x).scrim = s.scrim := rfl
@[simp] theorem State.setCtx_pcie : (s.setCtx c x).pcie = s.pcie := rfl
@[simp] theorem State.setCtx_wrd : (s.setCtx c x).wrd = s.wrd := rfl
@[simp] theorem State.setCtx_ldr : (s.setCtx c x).ldr = s.ldr := rfl
@[simp] theorem State.setCtx_scr : (s.setCtx c x).scr = s.scr := rfl
@[simp] theorem State.setCtx_clk : (s.setCtx c x).clk = s.clk := rfl
@[simp] theorem State.setCtx_pwr : (s.setCtx c x).pwr = s.pwr := rfl
@[simp] theorem State.setCtx_sec : (s.setCtx c x).sec = s.sec := rfl
@[simp] theorem State.setCtx_dbg : (s.setCtx c x).dbg = s.dbg := rfl
@[simp] theorem State.setCtx_io : (s.setCtx c x).io = s.io := rfl
@[simp] theorem State.setCtx_free : (s.setCtx c x).free = s.free := rfl
@[simp] theorem State.setCtx_out : (s.setCtx c x).out = s.out := rfl
@[simp] theorem State.setCtx_net : (s.setCtx c x).net = { s.net with ctx := s.net.ctx.set {} c x } := rfl
@[simp] theorem State.ctx_setCtx_self : (s.setCtx c x).ctx c = x := Tab.get_set _ _ _
theorem State.ctx_setCtx_ne {j : Nat} (hj : j ≠ c) : (s.setCtx c x).ctx j = s.ctx j := Tab.get_set_ne hj _ _
end

/-! ## setPort -/

section
variable (s : State) (p : Nat) (x : EthPort)
@[simp] theorem State.setPort_pending : (s.setPort p x).pending = s.pending := rfl
@[simp] theorem State.setPort_tl : (s.setPort p x).tl = s.tl := rfl
@[simp] theorem State.setPort_fab : (s.setPort p x).fab = s.fab := rfl
@[simp] theorem State.setPort_que : (s.setPort p x).que = s.que := rfl
@[simp] theorem State.setPort_mem : (s.setPort p x).mem = s.mem := rfl
@[simp] theorem State.setPort_stp : (s.setPort p x).stp = s.stp := rfl
@[simp] theorem State.setPort_hg : (s.setPort p x).hg = s.hg := rfl
@[simp] theorem State.setPort_pool : (s.setPort p x).pool = s.pool := rfl
@[simp] theorem State.setPort_hbm : (s.setPort p x).hbm = s.hbm := rfl
@[simp] theorem State.setPort_scrim : (s.setPort p x).scrim = s.scrim := rfl
@[simp] theorem State.setPort_pcie : (s.setPort p x).pcie = s.pcie := rfl
@[simp] theorem State.setPort_wrd : (s.setPort p x).wrd = s.wrd := rfl
@[simp] theorem State.setPort_ldr : (s.setPort p x).ldr = s.ldr := rfl
@[simp] theorem State.setPort_scr : (s.setPort p x).scr = s.scr := rfl
@[simp] theorem State.setPort_clk : (s.setPort p x).clk = s.clk := rfl
@[simp] theorem State.setPort_pwr : (s.setPort p x).pwr = s.pwr := rfl
@[simp] theorem State.setPort_sec : (s.setPort p x).sec = s.sec := rfl
@[simp] theorem State.setPort_dbg : (s.setPort p x).dbg = s.dbg := rfl
@[simp] theorem State.setPort_io : (s.setPort p x).io = s.io := rfl
@[simp] theorem State.setPort_free : (s.setPort p x).free = s.free := rfl
@[simp] theorem State.setPort_out : (s.setPort p x).out = s.out := rfl
@[simp] theorem State.setPort_net : (s.setPort p x).net = { s.net with port := s.net.port.set {} p x } := rfl
@[simp] theorem State.port_setPort_self : (s.setPort p x).port p = x := Tab.get_set _ _ _
theorem State.port_setPort_ne {j : Nat} (hj : j ≠ p) : (s.setPort p x).port j = s.port j := Tab.get_set_ne hj _ _
end

/-! ## setLane -/

section
variable (s : State) (l : Nat) (x : Lane)
@[simp] theorem State.setLane_pending : (s.setLane l x).pending = s.pending := rfl
@[simp] theorem State.setLane_tl : (s.setLane l x).tl = s.tl := rfl
@[simp] theorem State.setLane_fab : (s.setLane l x).fab = s.fab := rfl
@[simp] theorem State.setLane_que : (s.setLane l x).que = s.que := rfl
@[simp] theorem State.setLane_mem : (s.setLane l x).mem = s.mem := rfl
@[simp] theorem State.setLane_stp : (s.setLane l x).stp = s.stp := rfl
@[simp] theorem State.setLane_hg : (s.setLane l x).hg = s.hg := rfl
@[simp] theorem State.setLane_pool : (s.setLane l x).pool = s.pool := rfl
@[simp] theorem State.setLane_hbm : (s.setLane l x).hbm = s.hbm := rfl
@[simp] theorem State.setLane_scrim : (s.setLane l x).scrim = s.scrim := rfl
@[simp] theorem State.setLane_pcie : (s.setLane l x).pcie = s.pcie := rfl
@[simp] theorem State.setLane_wrd : (s.setLane l x).wrd = s.wrd := rfl
@[simp] theorem State.setLane_ldr : (s.setLane l x).ldr = s.ldr := rfl
@[simp] theorem State.setLane_scr : (s.setLane l x).scr = s.scr := rfl
@[simp] theorem State.setLane_clk : (s.setLane l x).clk = s.clk := rfl
@[simp] theorem State.setLane_pwr : (s.setLane l x).pwr = s.pwr := rfl
@[simp] theorem State.setLane_sec : (s.setLane l x).sec = s.sec := rfl
@[simp] theorem State.setLane_dbg : (s.setLane l x).dbg = s.dbg := rfl
@[simp] theorem State.setLane_io : (s.setLane l x).io = s.io := rfl
@[simp] theorem State.setLane_free : (s.setLane l x).free = s.free := rfl
@[simp] theorem State.setLane_out : (s.setLane l x).out = s.out := rfl
@[simp] theorem State.setLane_net : (s.setLane l x).net = { s.net with lane := s.net.lane.set {} l x } := rfl
@[simp] theorem State.lane_setLane_self : (s.setLane l x).lane l = x := Tab.get_set _ _ _
theorem State.lane_setLane_ne {j : Nat} (hj : j ≠ l) : (s.setLane l x).lane j = s.lane j := Tab.get_set_ne hj _ _
end

/-! ## setSdi -/

section
variable (s : State) (j : Nat) (x : SdiPort)
@[simp] theorem State.setSdi_pending : (s.setSdi j x).pending = s.pending := rfl
@[simp] theorem State.setSdi_tl : (s.setSdi j x).tl = s.tl := rfl
@[simp] theorem State.setSdi_fab : (s.setSdi j x).fab = s.fab := rfl
@[simp] theorem State.setSdi_que : (s.setSdi j x).que = s.que := rfl
@[simp] theorem State.setSdi_mem : (s.setSdi j x).mem = s.mem := rfl
@[simp] theorem State.setSdi_stp : (s.setSdi j x).stp = s.stp := rfl
@[simp] theorem State.setSdi_hg : (s.setSdi j x).hg = s.hg := rfl
@[simp] theorem State.setSdi_pool : (s.setSdi j x).pool = s.pool := rfl
@[simp] theorem State.setSdi_hbm : (s.setSdi j x).hbm = s.hbm := rfl
@[simp] theorem State.setSdi_scrim : (s.setSdi j x).scrim = s.scrim := rfl
@[simp] theorem State.setSdi_pcie : (s.setSdi j x).pcie = s.pcie := rfl
@[simp] theorem State.setSdi_wrd : (s.setSdi j x).wrd = s.wrd := rfl
@[simp] theorem State.setSdi_ldr : (s.setSdi j x).ldr = s.ldr := rfl
@[simp] theorem State.setSdi_scr : (s.setSdi j x).scr = s.scr := rfl
@[simp] theorem State.setSdi_clk : (s.setSdi j x).clk = s.clk := rfl
@[simp] theorem State.setSdi_pwr : (s.setSdi j x).pwr = s.pwr := rfl
@[simp] theorem State.setSdi_sec : (s.setSdi j x).sec = s.sec := rfl
@[simp] theorem State.setSdi_dbg : (s.setSdi j x).dbg = s.dbg := rfl
@[simp] theorem State.setSdi_io : (s.setSdi j x).io = s.io := rfl
@[simp] theorem State.setSdi_free : (s.setSdi j x).free = s.free := rfl
@[simp] theorem State.setSdi_out : (s.setSdi j x).out = s.out := rfl
@[simp] theorem State.setSdi_net : (s.setSdi j x).net = { s.net with sdi := s.net.sdi.set {} j x } := rfl
@[simp] theorem State.sdi_setSdi_self : (s.setSdi j x).sdi j = x := Tab.get_set _ _ _
theorem State.sdi_setSdi_ne {j : Nat} (hj : j ≠ j) : (s.setSdi j x).sdi j = s.sdi j := Tab.get_set_ne hj _ _
end

/-! ## setLink -/

section
variable (s : State) (n : Nat) (x : PcieLink)
@[simp] theorem State.setLink_pending : (s.setLink n x).pending = s.pending := rfl
@[simp] theorem State.setLink_tl : (s.setLink n x).tl = s.tl := rfl
@[simp] theorem State.setLink_fab : (s.setLink n x).fab = s.fab := rfl
@[simp] theorem State.setLink_que : (s.setLink n x).que = s.que := rfl
@[simp] theorem State.setLink_mem : (s.setLink n x).mem = s.mem := rfl
@[simp] theorem State.setLink_stp : (s.setLink n x).stp = s.stp := rfl
@[simp] theorem State.setLink_hg : (s.setLink n x).hg = s.hg := rfl
@[simp] theorem State.setLink_pool : (s.setLink n x).pool = s.pool := rfl
@[simp] theorem State.setLink_hbm : (s.setLink n x).hbm = s.hbm := rfl
@[simp] theorem State.setLink_scrim : (s.setLink n x).scrim = s.scrim := rfl
@[simp] theorem State.setLink_net : (s.setLink n x).net = s.net := rfl
@[simp] theorem State.setLink_wrd : (s.setLink n x).wrd = s.wrd := rfl
@[simp] theorem State.setLink_ldr : (s.setLink n x).ldr = s.ldr := rfl
@[simp] theorem State.setLink_scr : (s.setLink n x).scr = s.scr := rfl
@[simp] theorem State.setLink_clk : (s.setLink n x).clk = s.clk := rfl
@[simp] theorem State.setLink_pwr : (s.setLink n x).pwr = s.pwr := rfl
@[simp] theorem State.setLink_sec : (s.setLink n x).sec = s.sec := rfl
@[simp] theorem State.setLink_dbg : (s.setLink n x).dbg = s.dbg := rfl
@[simp] theorem State.setLink_io : (s.setLink n x).io = s.io := rfl
@[simp] theorem State.setLink_free : (s.setLink n x).free = s.free := rfl
@[simp] theorem State.setLink_out : (s.setLink n x).out = s.out := rfl
@[simp] theorem State.setLink_pcie : (s.setLink n x).pcie = s.pcie.set {} n x := rfl
@[simp] theorem State.link_setLink_self : (s.setLink n x).link n = x := Tab.get_set _ _ _
theorem State.link_setLink_ne {j : Nat} (hj : j ≠ n) : (s.setLink n x).link j = s.link j := Tab.get_set_ne hj _ _
end

/-! ## setScrub -/

section
variable (s : State) (h : Nat) (x : Scrubber)
@[simp] theorem State.setScrub_pending : (s.setScrub h x).pending = s.pending := rfl
@[simp] theorem State.setScrub_tl : (s.setScrub h x).tl = s.tl := rfl
@[simp] theorem State.setScrub_fab : (s.setScrub h x).fab = s.fab := rfl
@[simp] theorem State.setScrub_que : (s.setScrub h x).que = s.que := rfl
@[simp] theorem State.setScrub_mem : (s.setScrub h x).mem = s.mem := rfl
@[simp] theorem State.setScrub_stp : (s.setScrub h x).stp = s.stp := rfl
@[simp] theorem State.setScrub_hg : (s.setScrub h x).hg = s.hg := rfl
@[simp] theorem State.setScrub_pool : (s.setScrub h x).pool = s.pool := rfl
@[simp] theorem State.setScrub_hbm : (s.setScrub h x).hbm = s.hbm := rfl
@[simp] theorem State.setScrub_scrim : (s.setScrub h x).scrim = s.scrim := rfl
@[simp] theorem State.setScrub_net : (s.setScrub h x).net = s.net := rfl
@[simp] theorem State.setScrub_pcie : (s.setScrub h x).pcie = s.pcie := rfl
@[simp] theorem State.setScrub_wrd : (s.setScrub h x).wrd = s.wrd := rfl
@[simp] theorem State.setScrub_ldr : (s.setScrub h x).ldr = s.ldr := rfl
@[simp] theorem State.setScrub_clk : (s.setScrub h x).clk = s.clk := rfl
@[simp] theorem State.setScrub_pwr : (s.setScrub h x).pwr = s.pwr := rfl
@[simp] theorem State.setScrub_sec : (s.setScrub h x).sec = s.sec := rfl
@[simp] theorem State.setScrub_dbg : (s.setScrub h x).dbg = s.dbg := rfl
@[simp] theorem State.setScrub_io : (s.setScrub h x).io = s.io := rfl
@[simp] theorem State.setScrub_free : (s.setScrub h x).free = s.free := rfl
@[simp] theorem State.setScrub_out : (s.setScrub h x).out = s.out := rfl
@[simp] theorem State.setScrub_scr : (s.setScrub h x).scr = s.scr.set {} h x := rfl
@[simp] theorem State.scrub_setScrub_self : (s.setScrub h x).scrub h = x := Tab.get_set _ _ _
theorem State.scrub_setScrub_ne {j : Nat} (hj : j ≠ h) : (s.setScrub h x).scrub j = s.scrub j := Tab.get_set_ne hj _ _
end

/-! ## setFloop -/

section
variable (s : State) (l : Nat) (x : FLoop)
@[simp] theorem State.setFloop_pending : (s.setFloop l x).pending = s.pending := rfl
@[simp] theorem State.setFloop_tl : (s.setFloop l x).tl = s.tl := rfl
@[simp] theorem State.setFloop_fab : (s.setFloop l x).fab = s.fab := rfl
@[simp] theorem State.setFloop_que : (s.setFloop l x).que = s.que := rfl
@[simp] theorem State.setFloop_mem : (s.setFloop l x).mem = s.mem := rfl
@[simp] theorem State.setFloop_stp : (s.setFloop l x).stp = s.stp := rfl
@[simp] theorem State.setFloop_hg : (s.setFloop l x).hg = s.hg := rfl
@[simp] theorem State.setFloop_pool : (s.setFloop l x).pool = s.pool := rfl
@[simp] theorem State.setFloop_hbm : (s.setFloop l x).hbm = s.hbm := rfl
@[simp] theorem State.setFloop_scrim : (s.setFloop l x).scrim = s.scrim := rfl
@[simp] theorem State.setFloop_net : (s.setFloop l x).net = s.net := rfl
@[simp] theorem State.setFloop_pcie : (s.setFloop l x).pcie = s.pcie := rfl
@[simp] theorem State.setFloop_wrd : (s.setFloop l x).wrd = s.wrd := rfl
@[simp] theorem State.setFloop_ldr : (s.setFloop l x).ldr = s.ldr := rfl
@[simp] theorem State.setFloop_scr : (s.setFloop l x).scr = s.scr := rfl
@[simp] theorem State.setFloop_pwr : (s.setFloop l x).pwr = s.pwr := rfl
@[simp] theorem State.setFloop_sec : (s.setFloop l x).sec = s.sec := rfl
@[simp] theorem State.setFloop_dbg : (s.setFloop l x).dbg = s.dbg := rfl
@[simp] theorem State.setFloop_io : (s.setFloop l x).io = s.io := rfl
@[simp] theorem State.setFloop_free : (s.setFloop l x).free = s.free := rfl
@[simp] theorem State.setFloop_out : (s.setFloop l x).out = s.out := rfl
@[simp] theorem State.setFloop_clk : (s.setFloop l x).clk = { s.clk with loop := s.clk.loop.set {} l x } := rfl
@[simp] theorem State.floop_setFloop_self : (s.setFloop l x).floop l = x := Tab.get_set _ _ _
theorem State.floop_setFloop_ne {j : Nat} (hj : j ≠ l) : (s.setFloop l x).floop j = s.floop j := Tab.get_set_ne hj _ _
end

/-! ## setGclk -/

section
variable (s : State) (g : Nat) (x : GClk)
@[simp] theorem State.setGclk_pending : (s.setGclk g x).pending = s.pending := rfl
@[simp] theorem State.setGclk_tl : (s.setGclk g x).tl = s.tl := rfl
@[simp] theorem State.setGclk_fab : (s.setGclk g x).fab = s.fab := rfl
@[simp] theorem State.setGclk_que : (s.setGclk g x).que = s.que := rfl
@[simp] theorem State.setGclk_mem : (s.setGclk g x).mem = s.mem := rfl
@[simp] theorem State.setGclk_stp : (s.setGclk g x).stp = s.stp := rfl
@[simp] theorem State.setGclk_hg : (s.setGclk g x).hg = s.hg := rfl
@[simp] theorem State.setGclk_pool : (s.setGclk g x).pool = s.pool := rfl
@[simp] theorem State.setGclk_hbm : (s.setGclk g x).hbm = s.hbm := rfl
@[simp] theorem State.setGclk_scrim : (s.setGclk g x).scrim = s.scrim := rfl
@[simp] theorem State.setGclk_net : (s.setGclk g x).net = s.net := rfl
@[simp] theorem State.setGclk_pcie : (s.setGclk g x).pcie = s.pcie := rfl
@[simp] theorem State.setGclk_wrd : (s.setGclk g x).wrd = s.wrd := rfl
@[simp] theorem State.setGclk_ldr : (s.setGclk g x).ldr = s.ldr := rfl
@[simp] theorem State.setGclk_scr : (s.setGclk g x).scr = s.scr := rfl
@[simp] theorem State.setGclk_pwr : (s.setGclk g x).pwr = s.pwr := rfl
@[simp] theorem State.setGclk_sec : (s.setGclk g x).sec = s.sec := rfl
@[simp] theorem State.setGclk_dbg : (s.setGclk g x).dbg = s.dbg := rfl
@[simp] theorem State.setGclk_io : (s.setGclk g x).io = s.io := rfl
@[simp] theorem State.setGclk_free : (s.setGclk g x).free = s.free := rfl
@[simp] theorem State.setGclk_out : (s.setGclk g x).out = s.out := rfl
@[simp] theorem State.setGclk_clk : (s.setGclk g x).clk = { s.clk with gclk := s.clk.gclk.set {} g x } := rfl
@[simp] theorem State.gclk_setGclk_self : (s.setGclk g x).gclk g = x := Tab.get_set _ _ _
theorem State.gclk_setGclk_ne {j : Nat} (hj : j ≠ g) : (s.setGclk g x).gclk j = s.gclk j := Tab.get_set_ne hj _ _
end

/-! ## setPin -/

section
variable (s : State) (p : Nat) (x : Pin)
@[simp] theorem State.setPin_pending : (s.setPin p x).pending = s.pending := rfl
@[simp] theorem State.setPin_tl : (s.setPin p x).tl = s.tl := rfl
@[simp] theorem State.setPin_fab : (s.setPin p x).fab = s.fab := rfl
@[simp] theorem State.setPin_que : (s.setPin p x).que = s.que := rfl
@[simp] theorem State.setPin_mem : (s.setPin p x).mem = s.mem := rfl
@[simp] theorem State.setPin_stp : (s.setPin p x).stp = s.stp := rfl
@[simp] theorem State.setPin_hg : (s.setPin p x).hg = s.hg := rfl
@[simp] theorem State.setPin_pool : (s.setPin p x).pool = s.pool := rfl
@[simp] theorem State.setPin_hbm : (s.setPin p x).hbm = s.hbm := rfl
@[simp] theorem State.setPin_scrim : (s.setPin p x).scrim = s.scrim := rfl
@[simp] theorem State.setPin_net : (s.setPin p x).net = s.net := rfl
@[simp] theorem State.setPin_pcie : (s.setPin p x).pcie = s.pcie := rfl
@[simp] theorem State.setPin_wrd : (s.setPin p x).wrd = s.wrd := rfl
@[simp] theorem State.setPin_ldr : (s.setPin p x).ldr = s.ldr := rfl
@[simp] theorem State.setPin_scr : (s.setPin p x).scr = s.scr := rfl
@[simp] theorem State.setPin_clk : (s.setPin p x).clk = s.clk := rfl
@[simp] theorem State.setPin_pwr : (s.setPin p x).pwr = s.pwr := rfl
@[simp] theorem State.setPin_sec : (s.setPin p x).sec = s.sec := rfl
@[simp] theorem State.setPin_dbg : (s.setPin p x).dbg = s.dbg := rfl
@[simp] theorem State.setPin_free : (s.setPin p x).free = s.free := rfl
@[simp] theorem State.setPin_out : (s.setPin p x).out = s.out := rfl
@[simp] theorem State.setPin_io : (s.setPin p x).io = { s.io with pin := s.io.pin.set {} p x } := rfl
@[simp] theorem State.pin_setPin_self : (s.setPin p x).pin p = x := Tab.get_set _ _ _
theorem State.pin_setPin_ne {j : Nat} (hj : j ≠ p) : (s.setPin p x).pin j = s.pin j := Tab.get_set_ne hj _ _
end

/-! ## setBank -/

section
variable (s : State) (b : Nat) (x : Bank)
@[simp] theorem State.setBank_pending : (s.setBank b x).pending = s.pending := rfl
@[simp] theorem State.setBank_tl : (s.setBank b x).tl = s.tl := rfl
@[simp] theorem State.setBank_fab : (s.setBank b x).fab = s.fab := rfl
@[simp] theorem State.setBank_que : (s.setBank b x).que = s.que := rfl
@[simp] theorem State.setBank_mem : (s.setBank b x).mem = s.mem := rfl
@[simp] theorem State.setBank_stp : (s.setBank b x).stp = s.stp := rfl
@[simp] theorem State.setBank_hg : (s.setBank b x).hg = s.hg := rfl
@[simp] theorem State.setBank_pool : (s.setBank b x).pool = s.pool := rfl
@[simp] theorem State.setBank_hbm : (s.setBank b x).hbm = s.hbm := rfl
@[simp] theorem State.setBank_scrim : (s.setBank b x).scrim = s.scrim := rfl
@[simp] theorem State.setBank_net : (s.setBank b x).net = s.net := rfl
@[simp] theorem State.setBank_pcie : (s.setBank b x).pcie = s.pcie := rfl
@[simp] theorem State.setBank_wrd : (s.setBank b x).wrd = s.wrd := rfl
@[simp] theorem State.setBank_ldr : (s.setBank b x).ldr = s.ldr := rfl
@[simp] theorem State.setBank_scr : (s.setBank b x).scr = s.scr := rfl
@[simp] theorem State.setBank_clk : (s.setBank b x).clk = s.clk := rfl
@[simp] theorem State.setBank_pwr : (s.setBank b x).pwr = s.pwr := rfl
@[simp] theorem State.setBank_sec : (s.setBank b x).sec = s.sec := rfl
@[simp] theorem State.setBank_dbg : (s.setBank b x).dbg = s.dbg := rfl
@[simp] theorem State.setBank_free : (s.setBank b x).free = s.free := rfl
@[simp] theorem State.setBank_out : (s.setBank b x).out = s.out := rfl
@[simp] theorem State.setBank_io : (s.setBank b x).io = { s.io with bank := s.io.bank.set {} b x } := rfl
@[simp] theorem State.bank_setBank_self : (s.setBank b x).bank b = x := Tab.get_set _ _ _
theorem State.bank_setBank_ne {j : Nat} (hj : j ≠ b) : (s.setBank b x).bank j = s.bank j := Tab.get_set_ne hj _ _
end

/-! ## setSerial -/

section
variable (s : State) (k : Nat) (x : Serial)
@[simp] theorem State.setSerial_pending : (s.setSerial k x).pending = s.pending := rfl
@[simp] theorem State.setSerial_tl : (s.setSerial k x).tl = s.tl := rfl
@[simp] theorem State.setSerial_fab : (s.setSerial k x).fab = s.fab := rfl
@[simp] theorem State.setSerial_que : (s.setSerial k x).que = s.que := rfl
@[simp] theorem State.setSerial_mem : (s.setSerial k x).mem = s.mem := rfl
@[simp] theorem State.setSerial_stp : (s.setSerial k x).stp = s.stp := rfl
@[simp] theorem State.setSerial_hg : (s.setSerial k x).hg = s.hg := rfl
@[simp] theorem State.setSerial_pool : (s.setSerial k x).pool = s.pool := rfl
@[simp] theorem State.setSerial_hbm : (s.setSerial k x).hbm = s.hbm := rfl
@[simp] theorem State.setSerial_scrim : (s.setSerial k x).scrim = s.scrim := rfl
@[simp] theorem State.setSerial_net : (s.setSerial k x).net = s.net := rfl
@[simp] theorem State.setSerial_pcie : (s.setSerial k x).pcie = s.pcie := rfl
@[simp] theorem State.setSerial_wrd : (s.setSerial k x).wrd = s.wrd := rfl
@[simp] theorem State.setSerial_ldr : (s.setSerial k x).ldr = s.ldr := rfl
@[simp] theorem State.setSerial_scr : (s.setSerial k x).scr = s.scr := rfl
@[simp] theorem State.setSerial_clk : (s.setSerial k x).clk = s.clk := rfl
@[simp] theorem State.setSerial_pwr : (s.setSerial k x).pwr = s.pwr := rfl
@[simp] theorem State.setSerial_sec : (s.setSerial k x).sec = s.sec := rfl
@[simp] theorem State.setSerial_dbg : (s.setSerial k x).dbg = s.dbg := rfl
@[simp] theorem State.setSerial_free : (s.setSerial k x).free = s.free := rfl
@[simp] theorem State.setSerial_out : (s.setSerial k x).out = s.out := rfl
@[simp] theorem State.setSerial_io : (s.setSerial k x).io = { s.io with ser := s.io.ser.set {} k x } := rfl
@[simp] theorem State.serial_setSerial_self : (s.setSerial k x).serial k = x := Tab.get_set _ _ _
theorem State.serial_setSerial_ne {j : Nat} (hj : j ≠ k) : (s.setSerial k x).serial j = s.serial j := Tab.get_set_ne hj _ _
end

/-! ## setPtp -/

section
variable (s : State) (b : Nat) (x : PtpPort)
@[simp] theorem State.setPtp_pending : (s.setPtp b x).pending = s.pending := rfl
@[simp] theorem State.setPtp_fab : (s.setPtp b x).fab = s.fab := rfl
@[simp] theorem State.setPtp_que : (s.setPtp b x).que = s.que := rfl
@[simp] theorem State.setPtp_mem : (s.setPtp b x).mem = s.mem := rfl
@[simp] theorem State.setPtp_stp : (s.setPtp b x).stp = s.stp := rfl
@[simp] theorem State.setPtp_hg : (s.setPtp b x).hg = s.hg := rfl
@[simp] theorem State.setPtp_pool : (s.setPtp b x).pool = s.pool := rfl
@[simp] theorem State.setPtp_hbm : (s.setPtp b x).hbm = s.hbm := rfl
@[simp] theorem State.setPtp_scrim : (s.setPtp b x).scrim = s.scrim := rfl
@[simp] theorem State.setPtp_net : (s.setPtp b x).net = s.net := rfl
@[simp] theorem State.setPtp_pcie : (s.setPtp b x).pcie = s.pcie := rfl
@[simp] theorem State.setPtp_wrd : (s.setPtp b x).wrd = s.wrd := rfl
@[simp] theorem State.setPtp_ldr : (s.setPtp b x).ldr = s.ldr := rfl
@[simp] theorem State.setPtp_scr : (s.setPtp b x).scr = s.scr := rfl
@[simp] theorem State.setPtp_clk : (s.setPtp b x).clk = s.clk := rfl
@[simp] theorem State.setPtp_pwr : (s.setPtp b x).pwr = s.pwr := rfl
@[simp] theorem State.setPtp_sec : (s.setPtp b x).sec = s.sec := rfl
@[simp] theorem State.setPtp_dbg : (s.setPtp b x).dbg = s.dbg := rfl
@[simp] theorem State.setPtp_io : (s.setPtp b x).io = s.io := rfl
@[simp] theorem State.setPtp_free : (s.setPtp b x).free = s.free := rfl
@[simp] theorem State.setPtp_out : (s.setPtp b x).out = s.out := rfl
@[simp] theorem State.setPtp_tl : (s.setPtp b x).tl = { s.tl with ports := s.tl.ports.set {} b x } := rfl
@[simp] theorem State.ptp_setPtp_self : (s.setPtp b x).ptp b = x := Tab.get_set _ _ _
theorem State.ptp_setPtp_ne {j : Nat} (hj : j ≠ b) : (s.setPtp b x).ptp j = s.ptp j := Tab.get_set_ne hj _ _
end

/-! ## emit and draw -/

section
variable (s : State) (o : Out)
@[simp] theorem State.emit_pending : (s.emit o).pending = s.pending := rfl
@[simp] theorem State.emit_tl : (s.emit o).tl = s.tl := rfl
@[simp] theorem State.emit_fab : (s.emit o).fab = s.fab := rfl
@[simp] theorem State.emit_que : (s.emit o).que = s.que := rfl
@[simp] theorem State.emit_mem : (s.emit o).mem = s.mem := rfl
@[simp] theorem State.emit_stp : (s.emit o).stp = s.stp := rfl
@[simp] theorem State.emit_hg : (s.emit o).hg = s.hg := rfl
@[simp] theorem State.emit_pool : (s.emit o).pool = s.pool := rfl
@[simp] theorem State.emit_hbm : (s.emit o).hbm = s.hbm := rfl
@[simp] theorem State.emit_scrim : (s.emit o).scrim = s.scrim := rfl
@[simp] theorem State.emit_net : (s.emit o).net = s.net := rfl
@[simp] theorem State.emit_pcie : (s.emit o).pcie = s.pcie := rfl
@[simp] theorem State.emit_wrd : (s.emit o).wrd = s.wrd := rfl
@[simp] theorem State.emit_ldr : (s.emit o).ldr = s.ldr := rfl
@[simp] theorem State.emit_scr : (s.emit o).scr = s.scr := rfl
@[simp] theorem State.emit_clk : (s.emit o).clk = s.clk := rfl
@[simp] theorem State.emit_pwr : (s.emit o).pwr = s.pwr := rfl
@[simp] theorem State.emit_sec : (s.emit o).sec = s.sec := rfl
@[simp] theorem State.emit_dbg : (s.emit o).dbg = s.dbg := rfl
@[simp] theorem State.emit_io : (s.emit o).io = s.io := rfl
@[simp] theorem State.emit_free : (s.emit o).free = s.free := rfl
@[simp] theorem State.emit_out : (s.emit o).out = s.out ++ [o] := rfl
@[simp] theorem State.draw_pending : s.draw.2.pending = s.pending := rfl
@[simp] theorem State.draw_tl : s.draw.2.tl = s.tl := rfl
@[simp] theorem State.draw_fab : s.draw.2.fab = s.fab := rfl
@[simp] theorem State.draw_que : s.draw.2.que = s.que := rfl
@[simp] theorem State.draw_mem : s.draw.2.mem = s.mem := rfl
@[simp] theorem State.draw_stp : s.draw.2.stp = s.stp := rfl
@[simp] theorem State.draw_hg : s.draw.2.hg = s.hg := rfl
@[simp] theorem State.draw_pool : s.draw.2.pool = s.pool := rfl
@[simp] theorem State.draw_hbm : s.draw.2.hbm = s.hbm := rfl
@[simp] theorem State.draw_scrim : s.draw.2.scrim = s.scrim := rfl
@[simp] theorem State.draw_net : s.draw.2.net = s.net := rfl
@[simp] theorem State.draw_pcie : s.draw.2.pcie = s.pcie := rfl
@[simp] theorem State.draw_wrd : s.draw.2.wrd = s.wrd := rfl
@[simp] theorem State.draw_ldr : s.draw.2.ldr = s.ldr := rfl
@[simp] theorem State.draw_scr : s.draw.2.scr = s.scr := rfl
@[simp] theorem State.draw_clk : s.draw.2.clk = s.clk := rfl
@[simp] theorem State.draw_pwr : s.draw.2.pwr = s.pwr := rfl
@[simp] theorem State.draw_sec : s.draw.2.sec = s.sec := rfl
@[simp] theorem State.draw_dbg : s.draw.2.dbg = s.dbg := rfl
@[simp] theorem State.draw_io : s.draw.2.io = s.io := rfl
@[simp] theorem State.draw_out : s.draw.2.out = s.out := rfl
@[simp] theorem State.draw_free : s.draw.2.free = s.free + 1 := rfl
@[simp] theorem State.draw_value : s.draw.1 = Config.freeValue s.free := rfl
end

/-! ## The state after reset -/

/-- Every memory has its canonical form at reset. -/
theorem State.reset_mem_wf : State.reset.mem.skim.wf = true ∧ State.reset.mem.screed.wf = true ∧ State.reset.mem.dmem.wf = true ∧
    State.reset.mem.pad.wf = true ∧ State.reset.hbm.mem.wf = true ∧ State.reset.ldr.flash0.mem.wf = true ∧
    State.reset.ldr.flash1.mem.wf = true ∧ State.reset.io.uf.wf = true ∧
    State.reset.io.ufBuf.wf = true ∧ ∀ n, (State.reset.link n).msix.wf = true :=
  ⟨rfl, rfl, rfl, rfl, rfl, rfl, rfl, rfl, rfl, fun _ => rfl⟩

end Sys2Proof.Machine
end

