-- ==== Sys2Proof/Laws/Warden.lean ====
section
/-! SUPPORT. What the operations of the warden's mailboxes can do: events, refusals and responses change the warden's records
and what leaves the block, and nothing else; and they keep every ring within its size. -/

namespace Sys2Proof.Machine

/-! ## Nothing else differs -/

theorem Same.refl (s : State) : Same s s := rfl

theorem Same.trans {s t u : State} (h : Same s t) (k : Same t u) : Same s u := by
  unfold Same at *; rw [k, h]

/-- Only the warden's records differ. -/
theorem Same.wrd (s : State) (w : Warden) : Same s { s with wrd := w } := rfl

theorem State.setMb_same (s : State) (h : Nat) (m : Mbox) : Same s (s.setMb h m) := rfl
theorem State.updMb_same (s : State) (h : Nat) (f : Mbox → Mbox) : Same s (s.updMb h f) := rfl
theorem State.emit_same (s : State) (o : Out) : Same s (s.emit o) := rfl

theorem State.msi_same (s : State) (h v : Nat) : Same s (s.msi h v) := by
  unfold State.msi; split <;> rfl

theorem each_same {α : Type} (l : List α) (f : α → State → State) (hf : ∀ a s, Same s (f a s)) (s : State) :
    Same s (each l f s) := by
  unfold each
  induction l generalizing s with
  | nil => rfl
  | cons a r ih => exact (hf a s).trans (ih (f a s))

theorem State.putEvent_same (s : State) (h : Nat) (e : Ev) : Same s (s.putEvent h e) := by
  unfold State.putEvent; dsimp only
  split <;> [exact (setMb_same _ _ _).trans (msi_same _ _ _); exact setMb_same _ _ _]

theorem State.postEvent_same (s : State) (h : Nat) (code : BitVec 16) (d : BitVec 96) (t : Nat) : Same s (s.postEvent h code d t) := by
  unfold State.postEvent; dsimp only
  split <;> [rfl; (split <;> [exact putEvent_same _ _ _; rfl])]

theorem State.flushLost_same (s : State) (h : Nat) : Same s (s.flushLost h) := by
  unfold State.flushLost; dsimp only
  split
  · split <;> [exact (setMb_same _ _ _).trans (putEvent_same _ _ _); rfl]
  · rfl

theorem State.flushBoot_same (s : State) : Same s s.flushBoot := by
  unfold State.flushBoot
  split
  · rfl
  · dsimp only
    have h : ∀ (c : BitVec 16) (d : BitVec 96) (l : List Nat) (u : State), Same u (each l (fun h v => v.postEvent h c d v.tl.now) u) :=
      fun c d l u => each_same _ _ (fun a v => postEvent_same v a c d v.tl.now) u
    split <;> [exact ((Same.wrd _ _).trans (h _ _ _ _)).trans (h _ _ _ _); exact (Same.wrd _ _).trans (h _ _ _ _)]

theorem State.eventAt_same (s : State) (l : List Nat) (code : BitVec 16) (d : BitVec 96) (t : Nat) : Same s (s.eventAt l code d t) :=
  (flushBoot_same s).trans (each_same _ _ (fun a v => postEvent_same v a code d t) _)

theorem State.event_same (s : State) (l : List Nat) (code : BitVec 16) (v : List Nat) : Same s (s.event l code v) := eventAt_same _ _ _ _ _
theorem State.ownerEvent_same (s : State) (code : BitVec 16) (v : List Nat) : Same s (s.ownerEvent code v) := event_same _ _ _ _
theorem State.allEvent_same (s : State) (code : BitVec 16) (v : List Nat) : Same s (s.allEvent code v) := event_same _ _ _ _

theorem State.deny_same (s : State) (kind index res i : Nat) : Same s (s.deny kind index res i) := by
  unfold State.deny
  split <;> [exact Same.wrd _ _; exact (eventAt_same _ _ _ _ _).trans (Same.wrd _ _)]

theorem State.denyBar0_same (s : State) (h res i : Nat) : Same s (s.denyBar0 h res i) := (updMb_same _ _ _).trans (deny_same _ _ _ _ _)

theorem State.gatedAcc_same (s : State) (h : Nat) : Same s (s.gatedAcc h) := updMb_same _ _ _

theorem State.putRsp_same (s : State) (h : Nat) (r : Rsp) : Same s (s.putRsp h r) := by
  unfold State.putRsp; dsimp only
  split <;> [exact (setMb_same _ _ _).trans (msi_same _ _ _); exact setMb_same _ _ _]

theorem State.respond_same (s : State) (h : Nat) (r : Rsp) : Same s (s.respond h r) := by
  unfold State.respond; dsimp only
  split <;> [exact putRsp_same _ _ _; exact setMb_same _ _ _]

theorem State.flushRsp_same (s : State) (h : Nat) (l : List Rsp) : Same s (s.flushRsp h l) := by
  induction l generalizing s with
  | nil => rfl
  | cons r q ih =>
    unfold State.flushRsp; dsimp only
    split <;> [exact ((setMb_same _ _ _).trans (putRsp_same _ _ _)).trans (ih _); rfl]

theorem State.finish_same (s : State) (b : Bg) (st : BitVec 8) (c : BitVec 16) (l : List Nat) : Same s (s.finish b st c l) := by
  unfold State.finish
  split <;> [exact (Same.wrd _ _).trans (respond_same _ _ _); rfl]

/-- A response changes nothing of what the command's meaning left. -/
theorem State.reply_same (h : Nat) (c : Cmd) (a : Ans) : Same a.s (State.reply h c a) := by
  unfold State.reply
  split
  · rfl
  · dsimp only
    have q : ∀ t r, Same a.s t → Same a.s (State.respond (if (t.mb h).waiting = [] ∧ (t.mb h).rspUsed < 64 then t
        else t.updMb h fun m => { m with owed := some c }) h r) := by
      intro t r ht; refine (ht.trans ?_).trans (respond_same _ _ _); split <;> [rfl; exact updMb_same _ _ _]
    have p : Same a.s (if a.status = stQueued
        then { a.s.updMb h fun m => { m with running := none } with wrd.bg := (a.s.updMb h fun m => { m with running := none }).wrd.bg ++ [c.bg h] }
        else a.s.updMb h fun m => { m with running := none }) := by split <;> rfl
    split <;> [exact (q _ _ p).trans (finish_same _ _ _ _ _); exact q _ _ p]

/-! ## A mailbox row -/

/-- The row of a mailbox command always completes: with the response to the command it serves, or with no change. -/
theorem runCmd_cases (h : HostId) (code : BitVec 16) (sel : Cmd → Bool) (f : State → Nat → Cmd → Ans) (s : State) :
    (∃ c, (s.mb h).running = some c ∧ c.code = code ∧ sel c = true ∧ runCmd h code sel f s = .next (State.reply h c (f s h c))) ∨
    runCmd h code sel f s = .next s := by
  unfold runCmd
  split
  · rename_i c hc; split
    · rename_i hq; exact .inl ⟨c, hc, hq.1, hq.2, rfl⟩
    · exact .inr rfl
  · exact .inr rfl

theorem runCmd_served {h : HostId} {code : BitVec 16} {sel : Cmd → Bool} {f : State → Nat → Cmd → Ans} {s : State} {c : Cmd}
    (hr : (s.mb h).running = some c) (hc : c.code = code) (hs : sel c = true) :
    runCmd h code sel f s = .next (State.reply h c (f s h c)) := by simp [runCmd, hr, hc, hs]

/-! ## The rings stay within their sizes -/

theorem State.ringsBounded_setMb {s : State} (hs : s.ringsBounded) (h : Nat) {m : Mbox} (hm : m.bounded) : (s.setMb h m).ringsBounded := by
  intro k; by_cases hk : k = h
  · subst hk; simpa using hm
  · rw [State.mb_setMb_ne _ _ _ hk]; exact hs k

theorem State.ringsBounded_of_mb {s t : State} (h : t.wrd.mb = s.wrd.mb) (hs : s.ringsBounded) : t.ringsBounded := by
  intro k; have := hs k; unfold State.mb at *; rwa [h]

theorem State.msi_ringsBounded {s : State} (hs : s.ringsBounded) (h v : Nat) : (s.msi h v).ringsBounded := by
  unfold State.msi; split <;> exact hs

/-- One more entry in a ring of fewer than `k` entries. -/
theorem ring_succ (w r : BitVec 32) {k : Nat} (hk : k < 2 ^ 32) (h : (w - r).toNat < k) : (w + 1 - r).toNat ≤ k := by bv_omega

theorem State.putEvent_ringsBounded {s : State} (hs : s.ringsBounded) {h : Nat} (hm : (s.mb h).evUsed < 256) (e : Ev) :
    (s.putEvent h e).ringsBounded := by
  have hb := hs h
  have q : (s.setMb h { s.mb h with
      ev := (s.mb h).ev.set {} ((s.mb h).evW.toNat % 256) { e with eseq := (s.mb h).evW }, evW := (s.mb h).evW + 1 }).ringsBounded :=
    ringsBounded_setMb hs h ⟨hb.1, ring_succ _ _ (by decide) hm, hb.2.2⟩
  unfold State.putEvent; dsimp only
  split <;> [exact msi_ringsBounded q _ _; exact q]

theorem State.postEvent_ringsBounded {s : State} (hs : s.ringsBounded) (h : Nat) (code : BitVec 16) (d : BitVec 96) (t : Nat) :
    (s.postEvent h code d t).ringsBounded := by
  unfold State.postEvent; dsimp only
  split
  · exact hs
  · split
    · rename_i hq; exact putEvent_ringsBounded hs hq.1 _
    · exact ringsBounded_setMb hs h (hs h)

theorem each_ringsBounded {α : Type} (l : List α) (f : α → State → State) (hf : ∀ a s, s.ringsBounded → (f a s).ringsBounded)
    {s : State} (hs : s.ringsBounded) : (each l f s).ringsBounded := by
  unfold each
  induction l generalizing s with
  | nil => exact hs
  | cons a r ih => exact ih (hf a s hs)

theorem State.flushBoot_ringsBounded {s : State} (hs : s.ringsBounded) : s.flushBoot.ringsBounded := by
  unfold State.flushBoot
  split
  · exact hs
  · dsimp only
    have q : ∀ (c : BitVec 16) (d : BitVec 96) (l : List Nat) (u : State), u.ringsBounded →
        (each l (fun h v => v.postEvent h c d v.tl.now) u).ringsBounded :=
      fun c d l u hu => each_ringsBounded _ _ (fun a v hv => postEvent_ringsBounded hv a c d v.tl.now) hu
    split <;> [exact q _ _ _ _ (q _ _ _ _ hs); exact q _ _ _ _ hs]

theorem State.eventAt_ringsBounded {s : State} (hs : s.ringsBounded) (l : List Nat) (code : BitVec 16) (d : BitVec 96) (t : Nat) :
    (s.eventAt l code d t).ringsBounded :=
  each_ringsBounded _ _ (fun a _ hv => postEvent_ringsBounded hv a code d t) (flushBoot_ringsBounded hs)

theorem State.deny_ringsBounded {s : State} (hs : s.ringsBounded) (kind index res i : Nat) : (s.deny kind index res i).ringsBounded := by
  unfold State.deny
  split
  · exact hs
  · exact eventAt_ringsBounded hs _ _ _ _

theorem State.putRsp_ringsBounded {s : State} (hs : s.ringsBounded) {h : Nat} (hm : (s.mb h).rspUsed < 64) (r : Rsp) :
    (s.putRsp h r).ringsBounded := by
  have hb := hs h
  have q : (s.setMb h { s.mb h with
      rsp := (s.mb h).rsp.set {} ((s.mb h).rspW.toNat % 64) { r with rseq := (s.mb h).rspW, first := true }
      rspW := (s.mb h).rspW + 1, done := if r.first then r.seq else (s.mb h).done }).ringsBounded :=
    ringsBounded_setMb hs h ⟨ring_succ _ _ (by decide) hm, hb.2⟩
  unfold State.putRsp; dsimp only
  split <;> [exact msi_ringsBounded q _ _; exact q]

theorem State.respond_ringsBounded {s : State} (hs : s.ringsBounded) (h : Nat) (r : Rsp) : (s.respond h r).ringsBounded := by
  unfold State.respond; dsimp only
  split
  · rename_i hq; exact putRsp_ringsBounded hs hq.2 _
  · exact ringsBounded_setMb hs h (hs h)

theorem State.finish_ringsBounded {s : State} (hs : s.ringsBounded) (b : Bg) (st : BitVec 8) (c : BitVec 16) (l : List Nat) :
    (s.finish b st c l).ringsBounded := by
  unfold State.finish
  split <;> [exact respond_ringsBounded (s := { s with wrd.bg := s.wrd.bg.erase b }) hs _ _; exact hs]

theorem State.reply_ringsBounded {h : Nat} (c : Cmd) {a : Ans} (hs : a.s.ringsBounded) : (State.reply h c a).ringsBounded := by
  unfold State.reply
  split
  · exact hs
  · dsimp only
    have u : (a.s.updMb h fun m => { m with running := none }).ringsBounded := ringsBounded_setMb hs h (hs h)
    have q : ∀ t r, t.ringsBounded → (State.respond (if (t.mb h).waiting = [] ∧ (t.mb h).rspUsed < 64 then t
        else t.updMb h fun m => { m with owed := some c }) h r).ringsBounded := by
      intro t r ht; refine respond_ringsBounded ?_ h r; split <;> [exact ht; exact ringsBounded_setMb ht h (ht h)]
    have p : (if a.status = stQueued
        then { a.s.updMb h fun m => { m with running := none } with wrd.bg := (a.s.updMb h fun m => { m with running := none }).wrd.bg ++ [c.bg h] }
        else a.s.updMb h fun m => { m with running := none }).ringsBounded := by split <;> exact u
    split <;> [exact finish_ringsBounded (q _ _ p) _ _ _ _; exact q _ _ p]

end Sys2Proof.Machine
end

