-- ==== Sys2Proof/WellFormed.lean ====
section
/-! DEFINITION. Which terms are commands the hardware can meet: the shapes that the operand types leave open. -/

namespace Sys2Proof

/-- A hedgerow transaction carries 8 to 4,096 bytes, a multiple of 8 (R205, spec/10). -/
def xferLen (n : Nat) : Bool := n % 8 = 0 && 8 ≤ n && n ≤ 4096

/-- Operand shapes: lengths, alignments and byte enables. -/
def Instr.wf : Instr → Bool
  | .laneSelftestDone _ bits errors _ => errors.toNat ≤ bits.toNat
  | .registerWrite _ _ len (.write _) => 1 ≤ len && len ≤ 8
  | .registerWrite _ _ len .read => 1 ≤ len && len ≤ 4096
  | .bar2Write _ _ data be => data.length = be.length && data.length ≤ 512
  | .bar2Read _ _ len => len ≤ 4096
  | .smbSetPointer msg _ => msg.bytes.length ≤ 255 && msg.code ≠ 0x11 && msg.code ≠ 0x12
  | .smbWrite bytes _ => bytes.length ≤ 255
  | .smbRead count _ => count ≤ 255
  | .hedgerowBread _ _ _ off len => xferLen len && off % 8 = 0
  | .hedgerowBwrite _ _ _ off data be => xferLen data.length && data.length = be.length && off % 8 = 0
  | .hedgerowDread _ _ addr len => xferLen len && addr.toNat % 8 = 0
  | .hedgerowDwrite _ _ addr data be => xferLen data.length && data.length = be.length && addr.toNat % 8 = 0
  | .gateTargetRequest _ _ _ write off data be _ => (!write || data.length = be.length) && off.toNat % 8 = 0
  | .scrubUndercoatTurn _ reads => reads.length ≤ 3072
  | .recordFrames bad => bad.length ≤ 3072
  | .recordRepeat bad => bad.length ≤ 3072
  | .recordZero bad => bad.length ≤ 3072
  | .deniedWindowEnd kind _ res => kind ≤ 8 && res ≤ 10
  | .dbgResponse block => block.length = 224
  | .extest pins scan | .samplePreload pins scan | .extestPulse pins scan | .extestTrain pins scan => pins.length = scan.length
  | .dbgAccessRead (.noOp op _) => 4 < op.toNat
  | .dbgAccessRead (.noInstr code) => !([0, 1, 2, 3, 4, 5, 6, 0x10, 0x11, 0x12, 0x20, 0x30, 0xFF] : List (BitVec 8)).contains code
  | .dbgAccessRead (.read _) | .dbgAccessRead .capture => true
  | .heritageSerialByte _ _ => true
  | .deviceQuery _ | .nop _ | .deviceReset _ | .delayedDeviceReset | .eventMaskSet _ | .worldSet _ | .worldQuery _
  | .configLoad _ | .recoatLoad _ | .recoatLoadDone | .recoatDiscard _ | .meadowQuery _ | .configReadback _
  | .configReadbackDone _ _ | .timelineDiscipline _ | .timelineSet _ | .timelineStep _ | .timelineAdjust _
  | .gridDefine _ | .cueArm _ | .cueDisarm _ | .cueQuery _ | .flowCreate _ | .flowDelete _ | .flowEnable _
  | .flowDisable _ | .flowRestart _ | .flowSourceSwitch _ | .flowQuery _ | .portBlockSet _ | .portEnable _
  | .portDisable _ | .sdiPortSet _ | .laneConfigure _ | .poolClassDefine _ | .bufferAlloc _ | .bufferFree _
  | .bufferMigrate _ | .bufferQuery _ | .poolExclude _ | .poolExcludeLift _ | .apertureMap _ | .apertureUnmap _
  | .apertureQuery _ | .queueSetup _ | .queueQuery _ | .queueWindowMap _ | .queueWindowUnmap _ | .hbmMapSet _
  | .hbmQosSet _ | .hbmSrSet _ | .hbmRetrain _ | .hbmRetrainRun _ | .hbmRetrainDone _ _ _ | .scrimRegionSet _
  | .scrimKeyRoll _ | .scrimShareSet _ | .rowLoad _ | .rowLoadDone _ | .rowConfigure _ | .rowReset _
  | .engineReset _ | .taskEntrySet _ | .taskEntryClear _ | .taskEntryRetry _ | .taskEntryQuery _ | .schedTickSet _
  | .modeSetHold _ | .modeSetRun _ | .memPowerSet _ | .memColumnStateChange _ | .memColumnOnComplete _
  | .clockSwitch _ | .clockSwitchPref _ | .clockSwitchComplete _ _ | .clockGate _ | .clockUngate _
  | .clockGateClosed _ | .loopConfigure _ | .fabricLoopLock _ | .freqMeasure _ | .scrubControl _
  | .scrubControlResume _ | .scrubQuery _ | .laneCalibrate _ | .laneCalibrationDone _ _ _ | .laneSelftest _
  | .rowSelftest _ | .rowSelftestRun _ | .rowSelftestDone _ _ | .gpioRetry _ | .debugChallenge _ | .debugUnlock _
  | .debugUnlockComplete | .lifecycleAdvance _ | .lifecycleQuery _ | .mbDoorbell _ _ | .commandStart _
  | .rspReadSeqWrite _ _ | .evtReadSeqWrite _ _ | .mbIrqMaskWrite _ _ | .tlSecRead _ | .tlStatusClear _ _
  | .queueWindowPush _ _ _ _ | .queueWindowPop _ _ _ | .unitAccessTimeout _ _ | .pcieConfigRequest _ _ _
  | .hostLinkReset _ _ | .heritageDataRead _ _ | .heritageDataWrite _ _ _ | .ufErasePage _ _ | .ufProgramPage _ _
  | .ufOperationDone | .cueTlMark _ | .cueFlowSourceSwitch _ | .cueFlowEnable _ | .cueFlowDisable _
  | .cueRecoatSwap _ | .cueFabricEvent _ | .cueQueueBankSwap _ | .cueTaskRelease _ | .cueHostEvent _
  | .fabricEventDelivery _ | .recoatSwapEdge _ | .swapForced _ | .maskingRelease _ | .gateHeldRequestTimeout _
  | .holdWakeTimer | .skewCompare | .ptpMessage _ _ | .pendingStepApply | .ppsInEdge | .ptpSyncTimeout _
  | .announceReceiptTimeout _ | .ppsLossTimeout | .hostDisciplineTimeout | .rootReferenceLost | .rootCoast
  | .rootRelock | .coastTrim | .rootLoopLock | .sourceDead _ | .sourceReady _ | .fastOscStop
  | .fabricLoopRefLost _ | .fabricLoopRelock _ | .delayListTick _ | .operandWrite _ _ _ _ | .taskReadinessEval _
  | .taskDispatch _ | .taskStart _ | .taskCommit _ | .commitBufferDelivery _ _ | .engineWatchdogExpiry _
  | .taskAbortComplete _ | .hedgerowTransferEnd _ _ | .opAnop _ | .opCmac2 _ | .opCdot _ | .opXmac2 _ | .opXdot _
  | .opRnd2 _ | .opXrnd2 _ | .opAclr _ | .opAmov _ | .opAadd _ | .opExpa _ | .opNorma _ | .opAshr _ | .opAdd4 _
  | .opSub4 _ | .opBfly _ | .opShl4 _ | .opShra4 _ | .opAnd _ | .opOr _ | .opXor _ | .opMov _ | .opConj _
  | .opSwap _ | .opExpw _ | .opCmpw _ | .opMnop _ | .opLd _ | .opSt _ | .opLdh _ | .opSth _ | .opLdl _ | .opStl _
  | .opLdb _ | .opLdx _ | .opStx _ | .opQpush _ | .opToken _ | .opCnop _ | .opBr _ | .opCall _ | .opRet _
  | .opRepeat _ | .opLoop _ | .opEnd _ | .opSeta _ | .opSetm _ | .opAdda _ | .opCmpa _ | .opMvw _ | .opMvs _
  | .opMsv _ | .opMvaw _ | .opMvwa _ | .opVmov _ | .opWmov _ | .opHget _ | .opHput _ | .opHwait _
  | .hedgerowQpush _ _ _ _ | .hedgerowToken _ _ _ _ | .hedgerowQpeek _ _ _ | .hedgerowQpop _ _ _ _
  | .hedgerowResponse _ _ | .hedgerowTimeout _ _ | .creditReturnMessage _ _ | .handleTranslationMiss _ _
  | .hedgerowLinkRetry _ _ _ | .hedgerowLinkRetire _ _ | .gateRequestIssue _ _ | .gateTargetResponse _ _ _
  | .skimPortAccess _ _ _ | .screedPortAccess _ _ _ | .trowelSliceUpdate _ _ _ | .fabricQueuePush _ _ _ _
  | .fabricQueuePop _ _ _ | .fabricCreditReport _ | .queueAutoSwap _ | .queueForwardOffer _ | .ioDelayStep _ _ _ _
  | .ethernetFrameReceive _ _ _ | .ingressPacket _ _ _ | .mergeWaitExpiry _ _ | .pathLossTimeout _ _
  | .descriptorPush _ | .egressPacketForm _ | .egressPacketSend _ | .sdiInputLine _ _ | .sdiOutputLine _
  | .ethLinkDown _ _ _ | .ethLinkUp _ _ _ | .laneLossOfSignal _ | .laneSignalReturn _ _ | .hbmRefresh _
  | .hbmCalibration _ | .hbmTemperatureRead _ _ | .hbmPatrolRead _ _ | .hbmSelfRefreshEntry _
  | .hbmSelfRefreshExit _ | .hbmCeInterval | .hbmTrainingDone _ _ | .migrationStep _ | .migrationComplete _
  | .scrimFillGranule _ | .scrimCounterFold _ _ | .scrimRollStart _ | .scrimRollStep _ _ | .scrimRollDone _
  | .scrimKeyTableError _ _ | .scrimCounterError _ _ | .scrimPoisonWalkStep _ | .scrubFrameRead _ _
  | .scrubStoreRebuild _ _ | .imageHeader | .bootPointerTable | .imageBlock | .recordPad | .recordMem
  | .recordEssmap | .recordEnd | .fullLoadFailed | .globalHoldRelease | .chainLinkTrained _ | .chainTimeout
  | .chainStallTimeout | .powerOnReset | .debugPowerOnReset | .railGood _ | .railFail _ | .vbatLow | .cfgProgNLow
  | .wardenWatchdogExpiry | .dieEdgeTrained _ _ | .startupLaneCalDone _ | .holdEntryComplete | .holdWakeNLow
  | .holdExitResume | .holdExitRailTimeout | .holdCueDisarm _ | .tamperNAlarm | .supplyGlitchAlarm _
  | .dieOvertempAlarm _ | .lockdownCoreSteps | .gpioShortDetect _ _ | .challengeLapse | .idcode
  | .clamp | .highz | .dbgStatus | .dbgChallenge | .dbgAccessWrite _ _ | .dbgAccessReadInc _ | .dbgAccessWriteInc _ _ | .keyProgram _ _
  | .bypass | .trstNReset | .engineHaltRequest _ | .engineHalted _ | .haltForceTimeout _ | .engineResume _
  | .engineStep _ | .dbgHaltNLow | .wardenHalt | .wardenResume | .fabricClockEdge _ _ _ _ | .fabricResetRelease
  | .scratchpadWipeDone _ | .freqMeasureDone _ _ | .lifecycleFusesProgrammed | .keyProgramDone
  | .pcieLinkUp _ _ _ _ | .sdiInputLock _ _ _ | .smbAlertResponse => true

end Sys2Proof
end

