-- ==== Sys2Proof/Tests/Slice0.lean ====
section
/-! SUPPORT. Own tests: the well-formedness smoke tests, worked examples of the spec, and for each statement with hypotheses a
theorem that gives, for each of its clauses, concrete states and operands that meet the clause's hypotheses together, with what the
command then leaves. Expected values come from the spec or from the statement. -/

namespace Sys2Proof.Tests
open Sys2Proof Sys2Proof.Machine

set_option Elab.async false

/-! ## Helpers -/

/-- A device in RUN with every rail good, locked to crystal A. -/
def run0 : State := { State.reset with
  pwr := { State.reset.pwr with mode := .run, ghold := false, fabClk := true, cfgDone := true, down := [], edges := [0, 1, 2] }
  wrd := { State.reset.wrd with boot := none }
  clk := { State.reset.clk with locked := true, ref := 3, ready := ⟨[(1, true), (3, true)]⟩ }
  mem := { State.reset.mem with wiping := false } }

/-- The same device in another mode. -/
def inMode (m : Mode) : State := { run0 with pwr := { run0.pwr with mode := m } }

/-- A command of a code with its argument words, of a secure host. -/
def cmd (code : BitVec 16) (args : List (BitVec 64)) : Cmd := { seq := 0, code := code, tag := 7, args := args, world := true, at_ := 0 }

/-- The state in which the warden has started a command of host 0. -/
def on (s : State) (code : BitVec 16) (args : List (BitVec 64)) : State := s.updMb 0 fun m => { m with running := some (cmd code args) }

/-- The command completes and `p` holds of what it leaves. -/
def done (i : Instr) (s : State) (p : State → Bool) : Bool := match exec i s with | .next t => p t | _ => false

/-- The command completes and nothing changes. -/
def idle (i : Instr) (s : State) : Bool := done i s fun t => decide (t = s)

/-- Host 0's command is answered with a status, and `p` holds of what it leaves. -/
def gives (i : Instr) (s : State) (st : BitVec 8) (p : State → Bool := fun _ => true) : Bool :=
  done i s fun t => decide ((t.mb 0).running = none) && decide (((t.mb 0).rsp.get {} 0).status = st) && decide ((t.mb 0).rspW = 1) && p t

/-- A meadow changed. -/
def mea (s : State) (m : Nat) (f : Meadow → Meadow) : State := s.updMea m f

/-! ## Mailbox, timeline, cues, queues -/

/-- Host 0 rings with SEQ 0 in slot 0 and the given number of commands waiting. -/
def bell (n : Nat) (held : Bool) : State :=
  run0.updMb 0 fun m => { m with accepted := List.replicate n (cmd 0x0102 []), heldBell := held }

theorem test_witness_mailbox : ([
  -- acceptance, held with 64 waiting, ignored, dropped in LOCKDOWN
  done (.mbDoorbell 0 0) (bell 63 false) fun t => decide ((t.mb 0).expect = 1) && decide ((t.mb 0).accepted.length = 64),
  done (.mbDoorbell 0 0) (bell 64 false) fun t => (t.mb 0).heldBell && decide ((t.mb 0).expect = 0),
  done (.mbDoorbell 0 0) (bell 64 true) fun t => decide (t.mb 0 = (bell 64 true).mb 0),
  done (.mbDoorbell 0 1) (bell 0 false) fun t => decide ((t.mb 0).ignored = 1) && decide ((t.mb 0).accepted = []),
  done (.mbDoorbell 0 0) (run0.updMb 0 fun m => { m with cmd := m.cmd.set 0 0 5 }) fun t => decide ((t.mb 0).ignored = 1),
  idle (.mbDoorbell 0 0) (inMode .lockdown),
  -- a held doorbell is taken up as a command starts
  done (.commandStart 0) (bell 64 true) fun t => decide ((t.mb 0).accepted.length = 64) && decide ((t.mb 0).expect = 1) && !(t.mb 0).heldBell,
  -- starting: a command that passes the checks, and one of an unknown code
  done (.commandStart 0) (bell 1 false) fun t => decide ((t.mb 0).running = some (cmd 0x0102 [])) && decide ((t.mb 0).accepted = []),
  done (.commandStart 0) (run0.updMb 0 fun m => { m with accepted := [cmd 0xFFFF []] }) fun t =>
    decide ((t.mb 0).running = none) && decide (((t.mb 0).rsp.get {} 0).status = stBadArg) && decide (((t.mb 0).rsp.get {} 0).cause = 4),
  -- read pointers
  done (.rspReadSeqWrite 0 1) (run0.updMb 0 fun m => { m with rspW := 1 }) fun t => decide ((t.mb 0).rspR = 1),
  done (.rspReadSeqWrite 0 2) (run0.updMb 0 fun m => { m with rspW := 1 }) fun t => decide ((t.mb 0).rspR = 0) && decide ((t.mb 0).ignored = 1),
  done (.evtReadSeqWrite 0 1) (run0.updMb 0 fun m => { m with evW := 1 }) fun t => decide ((t.mb 0).evR = 1),
  done (.evtReadSeqWrite 0 2) (run0.updMb 0 fun m => { m with evW := 1 }) fun t => decide ((t.mb 0).evR = 0) && decide ((t.mb 0).ignored = 1),
  done (.mbIrqMaskWrite 0 7) run0 fun t => decide ((t.mb 0).irqMask = 3)] : List Bool).all id = true := by decide

/-- DoorbellTwiceAcceptsOnce: the doorbell of SEQ 0 accepted, then given again. -/
theorem test_witness_doorbellTwice : (match exec (.mbDoorbell 0 0) run0 with
    | .next t => decide ((t.mb 0).expect = 1) && done (.mbDoorbell 0 0) t fun u => decide ((u.mb 0).accepted = (t.mb 0).accepted)
    | _ => false) = true := by decide

/-- RingsStayBounded and ExecLeavesQueue: a state within bounds and a step of it. -/
theorem test_witness_rings : (decide ((run0.mb 0).rspUsed ≤ 64 ∧ (run0.mb 0).evUsed ≤ 256 ∧ (run0.mb 0).accepted.length ≤ 64) &&
    (match step { run0 with pending := [.nop 0, .idcode] } with | .next t => decide (t.pending = [.idcode]) | _ => false)) = true := by
  decide

/-- A refusal window of host 1 against buffers with `n` refusals counted. -/
def window (n : Nat) : State := { run0 with wrd := { run0.wrd with windows := [(0, 1, 6, n, 9)] } }

theorem test_witness_device : ([
  gives (.deviceQuery 0) (on run0 0x0101 []) stOk, gives (.nop 0) (on run0 0x0102 []) stOk,
  gives (.deviceReset 0) (on run0 0x0103 []) stOk fun t => t.wrd.resetDue,
  gives (.eventMaskSet 0) (on run0 0x0104 [0xFFF]) stOk fun t => decide ((t.mb 0).evMask = 0xFFE),
  done (.deniedWindowEnd 0 1 6) (window 0) fun t => decide (t.wrd.windows = []),
  done (.deniedWindowEnd 0 1 6) (window 3) fun t => decide (t.wrd.windows = [(0, 1, 6, 0, 9)]) && decide ((t.mb 0).evW = 1)] : List Bool).all id = true := by decide

/-- An entry word of a cue: action, target, argument. -/
def entry (action target arg : Nat) (extra : Nat := 0) : BitVec 256 :=
  BitVec.ofNat 256 (pack [(action, 232), (target, 216), (arg, 152)] + extra)

/-- Cue `k` armed for a launch time. -/
def armed (s : State) (k launch : Nat) (e : BitVec 256) : State :=
  { s with tl := { s.tl with cues := s.tl.cues.set {} k { armed := true, world := true, entry := e, launch := launch } } }

/-- The timeline at a number of units, with a cue of slot 5 armed at 100 ns. -/
def timed (now : Nat) : State := armed { run0 with tl := { run0.tl with now := now } } 5 (100 * nsU) (entry 0x0101 0 0xAB)

def sourced (src : BitVec 4) : State := { run0 with tl := { run0.tl with source := src } }

/-- The tick generator of a heath stands at a number of nanoseconds of its 1,000. -/
def ticking (h phase : Nat) : State := { run0 with tl := { run0.tl with ticks := ⟨[(h, { phase := phase * nsU })]⟩ } }

theorem test_witness_timeline : ([
  gives (.timelineDiscipline 0) (on run0 0x0401 [0x000041]) stOk fun t => decide (t.tl.state = .acquiring) && decide (t.tl.sel = 1),
  gives (.timelineDiscipline 0) (on { run0 with tl := { run0.tl with state := .locked, sel := 2 } } 0x0401 [1]) stOk fun t => decide (t.tl.state = .holdover),
  gives (.timelineDiscipline 0) (on run0 0x0401 [0x7F0000]) stOk fun t => decide (t.tl.state = .freerun),
  gives (.timelineSet 0) (on (timed 0) 0x0402 [0, 100]) stBusy fun t => decide (t.tl.now = 0),
  gives (.timelineSet 0) (on (timed 0) 0x0402 [0, 99]) stOk fun t => decide (t.tl.now = 99 * nsU) && t.tl.stepped,
  gives (.timelineStep 0) (on (timed 0) 0x0403 [100]) stBusy, gives (.timelineStep 0) (on (timed 0) 0x0403 [99]) stOk fun t => decide (t.tl.now = 99 * nsU),
  gives (.timelineAdjust 0) (on (sourced 6) 0x0404 [0]) stOk fun t => decide (t.tl.incr = 0x280000000),
  gives (.timelineAdjust 0) (on (sourced 1) 0x0404 [0]) stNotReady,
  gives (.gridDefine 0) (on run0 0x0405 [0x465000000 + 3, 0x100000032]) stOk fun t => decide ((t.tl.grids.get none 3).isSome = true),
  gives (.gridDefine 0) (on (armed run0 5 (100 * nsU) (entry 0x0101 0 0 (2 ^ 253 + 3 * 2 ^ 116))) 0x0405 [3, 0x100000032]) stBusy,
  -- an adjustment while an automatic step waits is kept; a step moves the last pulse with the count
  gives (.timelineAdjust 0) (on { run0 with tl := { run0.tl with source := 6, stepPend := some 9 } } 0x0404 [5]) stOk fun t => decide (t.tl.adjNext = some 5),
  gives (.timelineStep 0) (on { timed 0 with tl := { (timed 0).tl with ppsLast := some 4 } } 0x0403 [99]) stOk fun t => decide (t.tl.ppsLast = some (99 * nsU + 4)),
  -- a tick period: one that the counter has not reached, one that it has passed, and one set while a tick is due
  gives (.schedTickSet 0) (on (ticking 2 300) 0x0809 [2, 500]) stOk fun t => decide (t.tl.ticks.get {} 2 = { period := 500, phase := 300 * nsU }),
  gives (.schedTickSet 0) (on (ticking 2 500) 0x0809 [2, 500]) stOk fun t =>
    decide (t.tl.ticks.get {} 2 = { period := 500, phase := 500 * nsU - 1, force := true }),
  gives (.schedTickSet 0) (on (ticking 2 1001) 0x0809 [2, 5000]) stOk fun t => decide (t.tl.ticks.get {} 2 = { period := 5000, phase := 5001 * nsU })] : List Bool).all id = true := by decide

/-- StepPassesNoArmedCue: the cue of slot 5 lies ahead, and a step to just before it. -/
theorem test_witness_step : (decide (((timed 0).cue 5).armed = true) && decide ((timed 0).tl.now < ((timed 0).cue 5).launch) &&
    gives (.timelineStep 0) (on (timed 0) 0x0403 [99]) stOk fun t => decide (t.tl.now < (t.cue 5).launch)) = true := by decide

/-- A PTP port of block 0 that disciplines the timeline, with a master and a path delay. -/
def ptp0 : State := { run0 with tl := { run0.tl with
  sel := 1, source := 1, ports := ⟨[(0, { master := true, syncLost := false, annLost := false, delay := some 10 })]⟩ } }

theorem test_witness_discipline : ([
  decide (ptp0.ptpNamed 0 = true),
  done (.ptpMessage 0 (.announce 1 true)) ptp0 fun t => (t.ptp 0).master && decide ((t.ptp 0).annLog = 1),
  done (.ptpMessage 0 (.sync (-7) 100 150)) ptp0 fun t => decide ((t.ptp 0).offset = some 40),
  done (.ptpMessage 0 (.sync 1 100 150)) ptp0 fun t => !(t.ptp 0).master,
  done (.ptpSyncTimeout 0) ptp0 fun t => (t.ptp 0).syncLost, done (.announceReceiptTimeout 0) ptp0 fun t => (t.ptp 0).annLost,
  done .ppsLossTimeout { run0 with tl := { run0.tl with sel := 2, state := .locked, ppsLast := some 0 } } fun t => decide (t.tl.state = .holdover),
  done .hostDisciplineTimeout { run0 with tl := { run0.tl with sel := 3, state := .acquiring } } fun t => decide (t.tl.state = .acquiring),
  done .ppsInEdge { run0 with tl := { run0.tl with sel := 2, now := 5 } } fun t => decide (t.tl.ppsLast = some 5),
  done .skewCompare { run0 with tl := { run0.tl with skew := ⟨[(1, 0x280000001), (2, -0x280000001), (3, 0x280000000)]⟩ } } fun t =>
    decide (t.tl.skew.get 0 1 = 1) && decide (t.tl.skew.get 0 2 = -1) && decide (t.tl.skew.get 0 3 = 0x280000000) && t.tl.skewFault,
  done .pendingStepApply { run0 with tl := { run0.tl with stepPend := some 7 } } fun t => decide (t.tl.now = 7) && decide (t.tl.stepPend = none),
  idle .pendingStepApply { timed 0 with tl := { (timed 0).tl with stepPend := some (100 * nsU) } },
  done (.delayListTick 1) { run0 with tl := { run0.tl with ticks := ⟨[(1, { phase := 1000 * nsU })]⟩ } } fun t =>
    decide ((t.tl.ticks.get {} 1).phase = 0) && decide ((t.tl.ticks.get {} 1).count = 1),
  idle (.delayListTick 1) { run0 with tl := { run0.tl with ticks := ⟨[(1, { phase := 1000 * nsU - 1 })]⟩ } }] : List Bool).all id = true := by decide

/-- The argument words of CUE_ARM for a TL_MARK at a number of nanoseconds. -/
def armWords (ns : Nat) : List (BitVec 64) :=
  let e := entry 0x0101 0 1 (ns * 2 ^ 42)
  (List.range 4).map fun i => BitVec.ofNat 64 (fld e.toNat (64 * i) 64)

theorem test_witness_cueCommands : ([
  gives (.cueArm 0) (on run0 0x0406 (armWords 2000)) stOk fun t => (t.cue 0).armed && decide ((t.cue 0).launch = 2000 * nsU),
  gives (.cueArm 0) (on run0 0x0406 (armWords 1999)) stLate fun t => !(t.cue 0).armed,
  gives (.cueDisarm 0) (on (timed 0) 0x0407 [5]) stOk fun t => !(t.cue 5).armed && decide ((t.cue 5).gen = 1),
  gives (.cueDisarm 0) (on (timed (100 * nsU)) 0x0407 [5]) stLate fun t => (t.cue 5).armed,
  gives (.cueDisarm 0) (on { timed 0 with tl := { (timed 0).tl with cues := ⟨[(5, { (timed 0).cue 5 with ran := some 0 })]⟩ } } 0x0407 [5]) stLate
    fun t => (t.cue 5).armed,
  gives (.cueQuery 0) (on (timed 0) 0x0408 [5]) stOk] : List Bool).all id = true := by decide +kernel

/-- A queue of 16 words in block 0, auto-swapping, with its credits, and a word in its draining bank. -/
def skim0 (cons : BitVec 2) : SkimCfg :=
  { queueMode := true, a := { clk := 5 }, b := { clk := 5 }, qwWidth := 2, q := ⟨[(0, { cap := 1, fcred := 1, cons := cons, auto := true })]⟩ }
def word0 : QWord := { data := 0x55, prio := 1, epoch := 0, slot := 1 }
def queued (cons : BitVec 2) (drain fill : List QWord) : State :=
  let s := mea run0 0 fun x => { x with live := { x.live with pers := { skims := ⟨[(0, skim0 cons)]⟩ } }, gate := { isOpen := true, ready := true } }
  { s with que := { s.que with
    q := ⟨[(0, { fill := fill, drain := drain, slots := ⟨[(0, { src := 1, grant := 16, held := 16 }), (1, { src := srcCode 5 3, grant := 4, held := 3 })]⟩ })]⟩
    win := ⟨[(3, some (0, 0, 1, true))]⟩ } }

/-- A due cue of slot 5 with an action, a target and an argument. -/
def due (s : State) (action target arg : Nat) : State := armed { s with tl := { s.tl with now := 100 * nsU } } 5 (100 * nsU) (entry action target arg)

def eventful (n : Nat) : State :=
  mea run0 2 fun x => { x with live := { x.live with pers := { gateClk := 1 } }, gate := { x.gate with isOpen := true, ready := true, events := List.replicate n (1, 0, 0) } }

/-- The step on an empty queue leaves a state of which `p` holds. -/
def stepped (s : State) (p : State → Bool) : Bool := match step s with | .next t => p t | _ => false

/-- IdleStepIsTimelineEdge: an edge; a generator past its new period; nothing in LOCKDOWN; a due tick, and a due cue after it. -/
def pwr0 (f : Power → Power) : State := { run0 with pwr := f run0.pwr }
theorem test_witness_idle : ([
  decide (run0.dueRow = none), stepped run0 fun t => decide (t.tl.now = 0x280000000) && decide ((t.tl.ticks.get {} 2).phase = 0x280000000),
  stepped { run0 with tl := { run0.tl with ticks := ⟨[(2, { phase := 4, force := true })]⟩ } } fun t => decide ((t.tl.ticks.get {} 2).phase = 1000 * nsU),
  stepped (inMode .lockdown) fun t => decide (t = inMode .lockdown),
  stepped { inMode .lockdown with pwr := { (inMode .lockdown).pwr with lockPend := true } } fun t => decide (t.tl.now = 0x280000000),
  decide ({ due run0 0x0401 0 0 with pwr := (inMode .hold).pwr }.dueInHold = some 5),
  decide ((pwr0 fun p => { p with mode := .hold, wakes := [0] }).dueRow = some .holdWakeTimer),
  stepped (pwr0 fun p => { p with mode := .hold, wakes := [0] }) fun t => t.pwr.exiting && decide (t.pwr.wakes = []),
  decide ((ticking 1 1000).dueRow = some (.delayListTick 1)), decide ((ticking 1 999).dueRow = none),
  stepped (ticking 1 1000) fun t => decide ((t.tl.ticks.get {} 1).count = 1) && decide (t.tl.now = 0),
  (due run0 0x0101 0 0xAB).launchable 5 && decide ((due run0 0x0101 0 0xAB).dueRow = some (.cueTlMark 5)),
  stepped (due run0 0x0101 0 0xAB) fun t => (t.cue 5).launched && decide (t.tl.now = 100 * nsU),
  decide ((due (ticking 1 1000) 0x0101 0 0xAB).dueRow = some (.delayListTick 1)),
  stepped (due { run0 with tl := { run0.tl with ticks := ⟨[(3, { phase := 1000 * nsU })]⟩ } } 0x0302 2 9) fun t => !(t.cue 5).launched] : List Bool).all id = true := by decide

/-- A non-secure cue aimed at a secure meadow or queue. -/
def meets (s : State) : State := { s with tl := { s.tl with cues := ⟨[(5, { s.cue 5 with world := false })]⟩ } }

theorem test_witness_cues : ([
  done (.cueTlMark 5) (due run0 0x0101 0 0xAB) fun t => !(t.cue 5).armed && (t.cue 5).launched && decide ((t.mb 0).evW = 1),
  done (.cueHostEvent 5) (due run0 0x0601 2 0xAB) fun t => (t.cue 5).launched && decide ((t.mb 2).evW = 1),
  done (.cueQueueBankSwap 5) (due (queued 0 [] [word0]) 0x0401 0 0) fun t => (t.cue 5).launched && decide ((t.queue 0).drain = [word0]),
  done (.cueFabricEvent 5) (due (eventful 15) 0x0302 2 9) fun t => decide ((t.mea 2).gate.events.length = 16),
  done (.cueFabricEvent 5) (due (eventful 16) 0x0302 2 9) fun t => decide ((t.mea 2).gate.events.length = 16) && decide ((t.mb 0).evW = 1),
  done (.cueTaskRelease 5) (due run0 0x0501 7 1) fun t => (t.cue 5).launched,
  done (.fabricEventDelivery 2) (eventful 1) fun t => decide ((t.mea 2).gate.cue = some 1) && decide ((t.mea 2).gate.events = []),
  (match exec (.cueTlMark 5) (due run0 0x0101 0 0) with | .next t => done (.cueTlMark 5) t fun u => decide (u.cue 5 = t.cue 5) | _ => false),
  done (.cueFabricEvent 5) (meets (due (mea (eventful 0) 2 fun x => { x with world := true }) 0x0302 2 9)) fun t =>
    (t.cue 5).launched && decide ((t.mea 2).gate.events = []),
  done (.cueQueueBankSwap 5) (meets (due (let s := queued 0 [] [word0]; { s with que := { s.que with world := ⟨[(0, true)]⟩ } }) 0x0401 0 0)) fun t =>
    (t.cue 5).launched && decide ((t.queue 0).drain = [])] : List Bool).all id = true := by decide

theorem test_witness_queues : ([
  gives (.queueSetup 0) (on { mea (queued 0 [] []) 0 fun x => { x with live := { x.live with pers := {
      skims := ⟨[(0, { skim0 0 with q := ⟨[(0, { cap := 1 })]⟩ })]⟩ } } } with que := {} } 0x060A [0, 0, 0x5000000300000010]) stOk
    fun t => decide (((t.queue 0).slot 1).grant = 16),
  gives (.queueQuery 0) (on (queued 0 [] []) 0x060B [0]) stOk,
  gives (.queueWindowMap 0) (on (queued 2 [] []) 0x060C [7, 0x10]) stOk fun t => decide (t.que.win.get none 7 = some (0, 0, 0, true)),
  gives (.queueWindowUnmap 0) (on (queued 2 [] []) 0x060C [3, 0x100]) stOk fun t => decide (t.que.win.get none 3 = none),
  done (.fabricQueuePush 0 0 2 []) (queued 0 [] []) fun t => decide ((t.queue 0).fill.length = 1),
  done (.fabricQueuePush 0 0 2 []) { queued 0 [] [] with que := { q := ⟨[(0, { slots := ⟨[(0, { src := 1, grant := 16, held := 0 })]⟩ })]⟩ } } fun t =>
    decide ((t.qPort 0).dropIn = 1) && decide ((t.queue 0).nocred = 1),
  -- q_drop is high at the next edge of the producer clock, for one cycle
  done (.fabricCreditReport 0) (let s := queued 0 [] []; { s with que := { s.que with port := ⟨[(0, { dropIn := 4 })]⟩ } }) fun t =>
    (t.qPort 0).drop && decide (((t.qPort 0).dropIn.getLsbD 2) = false),
  done (.fabricQueuePop 0 0 true) (let s := queued 0 [word0] []; { s with que := { s.que with port := ⟨[(0, { valid := 1 })]⟩ } }) fun t =>
    !(t.qPort 0).valid.getLsbD 0 && decide ((t.queue 0).drain = []) && decide (((t.queue 0).slot 1).held = 4),
  done (.fabricCreditReport 0) { queued 0 [] [] with que := { q := ⟨[(0, { slots := ⟨[(0, { src := 1, grant := 16, held := 16, due := 3 })]⟩ })]⟩ } } fun t =>
    decide ((t.qPort 0).credit = some (0, 3)),
  done (.queueAutoSwap 0) (queued 0 [] [word0]) fun t => decide ((t.queue 0).drain = [word0]),
  done (.creditReturnMessage 0 1) { queued 0 [] [] with que := { q := ⟨[(0, { slots := ⟨[(1, { src := 1, grant := 16, held := 2, due := 3 })]⟩ })]⟩ } } fun t =>
    decide (t.out = [.credit 1 0 3]),
  done (.queueWindowPush 0 3 1 0x77) (queued 2 [] []) fun t => decide ((t.queue 0).fill.length = 1) && decide (((t.queue 0).slot 1).held = 2),
  done (.queueWindowPop 0 3 0) (queued 2 [word0] []) fun t => decide ((t.queue 0).drain = []),
  done (.queueWindowPop 0 3 0xABCD00000000) (queued 2 [word0] []) fun t => decide ((t.queue 0).seq = 1),
  done (.queueWindowPop 0 3 1) (queued 2 [word0] []) fun t => decide ((t.queue 0).popIgn = 1),
  done (.queueWindowPop 0 3 0) (queued 2 [] []) fun t => decide ((t.queue 0).popIgn = 1)] : List Bool).all id = true := by decide

/-- QueuePopReturnsCredit: a queue whose head's slot has a credit out. -/
theorem test_witness_pop : (let x := (queued 0 [word0] []).queue 0
    decide (x.head = some word0) && decide ((x.slot 1).held < (x.slot 1).grant) && decide ((x.pop.slot 1).held = (x.slot 1).held + 1)) = true := by
  decide


/-! ## Fabric, trowel slices, memories, scrim, HBM, pool -/

/-- A select field that takes a hard unit's output. -/
def takes (x : Mux) (i : Nat) : Nat × SelCfg := (x.key, { code := 1, src := .hard i })

/-- A W4 and a W16 wire that leave tussock 0 northwards. -/
def w4 : Wire := { tus := 0, cls := .w4, dir := .north, n := 0 }
def w16 : Wire := { tus := 0, cls := .w16, dir := .north, n := 0 }

/-- Meadow 0 on RCLK0, which carries GCLK0: a W4 wire with its end register, a W16 wire with both its registers, an eastward
crossing with its register, and a cell whose L0 and L2, clock enable and set/reset come from hard outputs 0 to 3. -/
def fabric0 : State := mea run0 0 fun x => { x with
  live := { x.live with pers := { x.live.pers with
    sel := ⟨[takes (.wire w4) 4, takes (.wire w16) 4, takes (.cross { dir := .east, word := true, n := 0 }) 4, takes (.cell 0 0) 0, takes (.cell 0 2) 1,
      takes (.ce 0) 2, takes (.sr 0) 3]⟩
    wires := ⟨[(w4.point 1, { en := true }), (w16.point 0, { en := true }), (w16.point 1, { en := true })]⟩
    crossings := ⟨[(Crossing.key { dir := .east, word := true, n := 0 }, { en := true, mask := 2 })]⟩
    tufts := ⟨[(0, { clkSel := 1, ceSrc := true, srSrc := true })]⟩
    cells := ⟨[(0, { tbl := 2 ^ 5, resval := (true, false), srUse := (true, false), ceUse := (true, false) })]⟩ } }
  wires := ⟨[(w16.point 0, 0x77)]⟩, xregs := ⟨[(Crossing.key { dir := .east, word := true, n := 0 }, 0x99)]⟩ }
/-- The hard outputs: L0, L2, CE, SR and a word. -/
def drive (l0 l2 ce sr : BitVec 16) : List FabIn := [.hard 0 0 l0, .hard 0 1 l2, .hard 0 2 ce, .hard 0 3 sr, .hard 0 4 0xBEEF]
def ff0 (t : State) : Bool := ((t.mea 0).ffs.get (false, false) 0).1
def fabric1 (f : Personality → Personality) : State := mea fabric0 0 fun x => { x with live := { x.live with pers := f x.live.pers } }

theorem test_witness_fabric : ([
  -- another global clock, the rising and the falling edge of the meadow's
  done (.fabricClockEdge 1 true (drive 1 1 1 0) []) fabric0 fun t => !ff0 t && decide ((t.mea 0).wires = (fabric0.mea 0).wires),
  done (.fabricClockEdge 0 true (drive 0 0 0 0) []) fabric0 fun t => decide ((t.mea 0).wires.get 0 (w4.point 1) = 0xBEEF) &&
    decide ((t.mea 0).wires.get 0 (w16.point 0) = 0xBEEF) && decide ((t.mea 0).wires.get 0 (w16.point 1) = 0x77) &&
    decide ((t.mea 0).xregs.get 0 (Crossing.key { dir := .east, word := true, n := 0 }) = 0xBEEF),
  done (.fabricClockEdge 0 false (drive 1 1 1 1) []) fabric0 fun t => !ff0 t && decide ((t.mea 0).wires = (fabric0.mea 0).wires),
  -- set/reset, clock enable off, the table's bit 5 and bit 4
  done (.fabricClockEdge 0 true (drive 0 0 0 1) []) fabric0 ff0,
  done (.fabricClockEdge 0 true (drive 1 1 0 0) []) fabric0 fun t => !ff0 t,
  done (.fabricClockEdge 0 true (drive 1 1 1 0) []) fabric0 ff0,
  done (.fabricClockEdge 0 true (drive 0 1 1 0) []) fabric0 fun t => !ff0 t,
  -- an asynchronous set/reset acts without an edge
  done (.fabricClockEdge 1 true (drive 0 0 0 1) []) (fabric1 fun p => { p with tufts := ⟨[(0, { clkSel := 1, ceSrc := true, srSrc := true, srAsync := true })]⟩ }) ff0,
  -- the data inputs S (with the carry in at one), X and the word-in bit
  done (.fabricClockEdge 0 true [] []) (fabric1 fun p => { p with tussocks := ⟨[(0, { ciSel := 1 })]⟩, cells := ⟨[(0, { dselA := 1, carryUse := true })]⟩ }) ff0,
  done (.fabricClockEdge 0 true [.hard 0 9 1] []) (fabric1 fun p => { p with sel := ⟨[takes (.cell 0 6) 9]⟩, cells := ⟨[(0, { dselA := 2 })]⟩ }) ff0,
  done (.fabricClockEdge 0 true [.hard 0 9 1] []) (fabric1 fun p => { p with sel := ⟨[takes (.wordIn 0) 9]⟩, cells := ⟨[(0, { dselA := 3 })]⟩ }) ff0] : List Bool).all id = true := by decide +kernel

/-- An upset inverts bits of a frame of a plane at once (R78); a level at a pin reaches its I/O cell. -/
theorem test_fabricIn : (done (.fabricClockEdge 0 true [.pad 0 3 true] [⟨0, true, 5, 1, 2, true⟩]) run0 fun t =>
    decide ((t.mea 0).under.frames.get 0 5 = 1) && decide ((t.mea 0).under.flips.get 0 5 = 1) &&
    decide ((t.mea 0).under.checks.get 0 5 = 2) && ((t.mea 0).under.sigs.get {} 5).bad && (t.pin 3).pad) = true := by decide +kernel

/-- FabricNets: the crossing of meadow 0 as meadow 1 sees it, with its register, masked, and with meadow 1 masked. -/
def nets0 (mask0 mask1 : Bool) : State := mea (mea fabric0 0 fun x => { x with
  masked := mask0, xout := ⟨[(Crossing.key { dir := .east, word := true, n := 0 }, 0xAA)]⟩, frst := true, ffs := ⟨[(1, (true, false))]⟩
  live := { x.live with pers := { x.live.pers with rspSel := ⟨[(0, 1), (1, 2)]⟩ } } }) 1 fun x => { x with masked := mask1 }
def west0 : Crossing := { dir := .west, word := true, n := 0 }

theorem test_witness_nets : ([
  decide (neighbour 1 .west = some 0) && decide (neighbour 0 .west = none) && decide (neighbour 47 .north = none) && decide (neighbour 7 .east = none),
  decide ((nets0 false false).fabNet (.sig 1 (.cross west0)) = 0x99), decide ((nets0 true false).fabNet (.sig 1 (.cross west0)) = 0xAA),
  decide ((nets0 false true).fabNet (.sig 1 (.cross west0)) = 0), decide ((nets0 false false).fabNet (.sig 0 (.cross west0)) = 0),
  decide ((nets0 false false).fabNet (.sig 0 (.spine 0)) = 1), decide ((nets0 false false).fabNet (.sig 0 (.spine 1)) = 1),
  decide ((nets0 false false).fabNet (.sig 1 (.spine 0)) = 0),
  decide (Mux.inputs (.wire w4) = 5) && decide ((fabric1 fun p => { p with sel := ⟨[((Mux.wire w4).key, { code := 6, src := .hard 4 })]⟩ }).fabNet (.mux 0 (.wire w4)) = 0),
  decide (fabric0.fabNet (.mux 0 (.cell 5 3)) = 0),
  -- R71, R72: where wires end, and which have register points
  decide (w4.stop = 4) && decide (w16.stop = tusAt 0 16) && w16.hasMid && !w4.hasMid && decide (Wire.stop { w4 with tus := tusAt 0 62 } = tusAt 0 63) &&
    !Wire.isReal { w16 with tus := 8 } && Wire.isReal { w16 with tus := 32 } && decide (tusX 49 33 = 32 + 4) && decide (tusY 56 0 = 64)] : List Bool).all id = true := by decide +kernel

/-- Pin 3, whose cell is clocked, with its delay taps. -/
def delayed (itap otap : BitVec 9) : State :=
  (mea run0 (pinMeadow 3) fun x => { x with live := { x.live with pers := { x.live.pers with ios := ⟨[(3, { clk := 5 })]⟩ } } }).setPin 3
    { reg := { itap := itap, otap := otap } }

theorem test_witness_delay : ([
  idle (.ioDelayStep 0 3 true true) run0,
  done (.ioDelayStep 0 3 true false) (delayed 511 510) fun t =>
    decide ((t.pin 3).reg.itap = 511) && decide ((t.pin 3).reg.otap = 511),
  done (.ioDelayStep 0 3 false true) (delayed 0 1) fun t =>
    decide ((t.pin 3).reg.itap = 0) && decide ((t.pin 3).reg.otap = 0),
  idle (.ioDelayStep 0 3 true false) run0] : List Bool).all id = true := by decide

/-- A slice of sward 0 without stages, clocked by RCLK0, whose accumulator stands at `re`. -/
def slice0 (sat : Bool) (re : BitVec 48) : State := mea run0 0 fun x => { x with
  live := { x.live with pers := { x.live.pers with
    trowels := ⟨[(0, { clk := 1, accSat := sat })]⟩
    sel := ⟨((List.range 6).map fun i => takes (.trowelWord 0 i) i) ++ (List.range 8).map fun i => takes (.trowelBit 0 i) (6 + i)⟩ } }
  trowels := ⟨[(0, { accRe := re })]⟩ }
/-- What comes to a slice: its words, tw_en, and the low bit of tw_ksel. -/
def mac (en : Bool) (aRe aIm bRe bIm : BitVec 16) (ksel : BitVec 2 := 0) : List FabIn :=
  [.hard 0 0 aRe, .hard 0 1 aIm, .hard 0 2 bRe, .hard 0 3 bIm, .hard 0 11 (netBit (ksel.getLsbD 0)), .hard 0 12 (netBit (ksel.getLsbD 1)), .hard 0 13 (netBit en)]
def accOf (t : State) : Int × Int := let x := (t.mea 0).trowels.get {} 0; (x.accRe.toInt, x.accIm.toInt)

theorem test_witness_trowel : ([
  done (.trowelSliceUpdate 0 0 (mac false 1 1 1 1)) (slice0 false 5) fun t => decide (t = (slice0 false 5).takeIns (mac false 1 1 1 1)),
  decide (((slice0 false 5).takeIns (mac true 2 3 5 7)).trowelEn 0 0 = true) && decide ((((slice0 false 5).takeIns (mac true 2 3 5 7)).trowelOps 0 0).are = 2) &&
    done (.trowelSliceUpdate 0 0 (mac true 2 3 5 7)) (mea (slice0 false 5) 0 fun x => { x with live := { x.live with pers := { x.live.pers with sel := {} } } }) fun t =>
      decide ((accOf t).1 = 5) && decide ((t.trowelOps 0 0).are = 0),
  done (.trowelSliceUpdate 0 0 (mac true 2 3 5 7)) (slice0 false 100) fun t => decide (accOf t = (100 + (10 - 21), 14 + 15)),
  done (.trowelSliceUpdate 0 0 (mac true 1 0 1 0)) (slice0 true 0x7FFFFFFFFFFF) fun t => decide ((accOf t).1 = 2 ^ 47 - 1),
  done (.trowelSliceUpdate 0 0 (mac true 1 0 1 0)) (slice0 false 0x7FFFFFFFFFFF) fun t => decide ((accOf t).1 = -(2 ^ 47)),
  decide (clampS 8 200 = 127) && decide (clampS 8 (-200) = -128) && decide (clampS 8 5 = 5), decide (roundShift 3 1 = 2) && decide (roundShift (-3) 1 = -1)] : List Bool).all id = true := by decide +kernel

/-- Skim block 0 in memory mode and screed block 0, both clocked, in a column state. -/
def memory0 (c : ColState) : State := mea run0 0 fun x => { x with col := c, live := { x.live with pers := { x.live.pers with
  sel := ⟨[takes (.skimWord 0 0) 0, takes (.screedWord 0 0) 1, takes (.screedWord 1 0) 2]⟩
  skims := ⟨[(0, { a := { clk := 5 } })]⟩, screeds := ⟨[(0, { a := { clk := 5 } })]⟩ } } }
def port (addr : BitVec 17) (ins : List FabIn) : PortIn := { addr := addr, en := true, we := 1, ins := ins }

theorem test_witness_memories : ([
  done (.skimPortAccess 0 (some (port 4095 [.hard 0 0 0x1234])) none) (memory0 .on) fun t => decide (t.skimLane 0 1023 3 = (0x1234, false)),
  done (.skimPortAccess 0 (some (port 4095 [.hard 0 0 0x1234])) none) (memory0 .off) fun t => decide (t.mem.skim.cells = []),
  decide ((memory0 .on).screedReach 0 = true) &&
    done (.screedPortAccess 0 (some (port 0x7FFF [.hard 0 1 0x55])) none) (memory0 .on) fun t => decide (t.screedLane 0 (2 * 0x7FFF) = 0x55),
  -- port A first, so that B's write to the same lane is what stands
  done (.screedPortAccess 0 (some (port 1 [.hard 0 1 0x55])) (some (port 1 [.hard 0 2 0x66]))) (mea (memory0 .on) 0 fun x => { x with live := { x.live with pers := { x.live.pers with
    screeds := ⟨[(0, { a := { clk := 5 }, b := { clk := 5 } })]⟩ } } }) fun t => decide (t.screedLane 0 2 = 0x66),
  decide ((mea (memory0 .on) 0 fun x => { x with screedWorld := true }).screedReach 0 = false) &&
    done (.screedPortAccess 0 (some (port 1 [.hard 0 1 0x55])) none) (mea (memory0 .on) 0 fun x => { x with screedWorld := true }) fun t => decide (t.mem.screed.cells = []),
  done (.memPowerSet 0) (on run0 0x0902 [0x200]) fun t => decide ((t.mea 0).colReq = some (.off, 0, 0)),
  gives (.memPowerSet 0) (on run0 0x0902 [0x000]) stIgnored,
  done (.memColumnStateChange 0) (mea (on run0 0x0902 [0x200]) 0 fun x => { x with colReq := some (.off, 0, 0) }) fun t =>
    decide ((t.mea 0).col = .off) && decide (((t.mb 0).rsp.get {} 0).status = stOk),
  done (.memColumnStateChange 0) (mea (on run0 0x0902 [0x100]) 0 fun x => { x with colReq := some (.retention, 0, 0) }) fun t => decide ((t.mea 0).col = .retention),
  done (.memColumnOnComplete 0) (mea (on run0 0x0902 [0]) 0 fun x => { x with col := .off, colReq := some (.on, 0, 0) }) fun t => decide ((t.mea 0).col = .on),
  done (.memColumnOnComplete 0) (mea (on { run0 with mem := { run0.mem with skim := { run0.mem.skim with cells := [⟨3, 0x55⟩] } } } 0x0902 [0]) 0
    fun x => { x with col := .off, colReq := some (.on, 0, 0) }) fun t => decide (t.mem.skim.read 3 = 0),
  idle (.memColumnOnComplete 0) (mea (on (inMode .hold) 0x0902 [0]) 0 fun x => { x with col := .off, colReq := some (.on, 0, 0) })] : List Bool).all id = true := by decide +kernel

/-- Region `r` changed. -/
def reg (s : State) (r : Nat) (f : Region → Region) : State := s.updRegion r f
def roll0 (walking : Bool) (bound : Tab Nat := {}) : Roll := { cause := 1, integ := true, walking := walking, bound := bound }
/-- A buffer of two granules on the first two pseudo-channels, in granules 0. -/
def buf0 : Buf := { cls := 1, size := 2, bw := 0, lat := 0, world := false, place := .hbm 1024 [(0, [0]), (1, [0])], fill := none }
def pooled (b : Buf) : State := { run0 with
  pool := { run0.pool with buf := ⟨[(9, some b)]⟩, cls := ⟨[(1, some { size := 2, bw := 0, lat := 0, world := false, pref := 0 })]⟩ }
  hbm := { run0.hbm with pch := ⟨(List.range 32).map fun p => (p, { st := .active })⟩ } }

theorem test_witness_scrim : ([
  gives (.scrimRegionSet 0) (on run0 0x0705 [0x302]) stOk fun t => (t.region 2).world && (t.region 2).roll.isSome,
  gives (.scrimRegionSet 0) (on run0 0x0705 [0x002]) stIgnored,
  gives (.scrimKeyRoll 0) (on run0 0x0706 [2]) stOk fun t => (t.region 2).roll.isSome,
  gives (.scrimShareSet 0) (on run0 0x0707 [0x1401]) stOk fun t => decide ((t.slice 1).share = 0x14),
  done (.scrimCounterFold 2 15) (reg run0 2 fun x => { x with root := 5, leaf := ⟨[(15, 7)]⟩ }) fun t => decide ((t.region 2).root = 12),
  done (.scrimRollStart 2) (let s := reg run0 2 fun x => { x with roll := some (roll0 false) }; { s with scrim := { s.scrim with slice := ⟨[(0, { waiting := [2] })]⟩ } })
    fun t => decide ((t.region 2).epoch = 1) && decide ((t.region 2).walkingRoll.isSome = true),
  done (.scrimRollStep 2 0) (reg { run0 with hbm := (pooled buf0).hbm } 2 fun x => { x with roll := some (roll0 true) }) fun t =>
    decide ((t.region 2).roll = some (roll0 true ⟨[(0, regionLines)]⟩)),
  done (.scrimRollStep 0 1) (reg (pooled buf0) 0 fun x => { x with roll := some (roll0 true) }) fun t =>
    decide ((t.region 0).roll = some (roll0 true ⟨[(1, 8)]⟩)),
  done (.scrimRollDone 2) (reg run0 2 fun x => { x with roll := some (roll0 true ⟨(List.range 16).map fun p => (p, regionLines)⟩) }) fun t =>
    (t.region 2).integ && (t.region 2).roll.isNone,
  done (.scrimCounterError 2 (some 3)) run0 fun t => (t.region 2).roll.isSome,
  done (.scrimKeyTableError 2 false) run0 fun t => decide (t.scrim = run0.scrim),
  done (.scrimKeyTableError 2 true) (reg run0 2 fun x => { x with world := true }) fun t => (t.region 2).lost && decide ((t.region 2).key = 1) && (t.region 2).roll.isNone,
  done (.scrimPoisonWalkStep 2) (reg run0 2 fun x => { x with lost := true }) fun t => !(t.region 2).lost,
  done (.scrimPoisonWalkStep 0) (reg (pooled buf0) 0 fun x => { x with lost := true }) fun t =>
    decide ((t.region 0).walk = 64) && decide (t.lineMark 0 63 = .poison),
  done (.scrimFillGranule 9) (pooled { buf0 with fill := some [0] }) fun t => decide ((t.buf 9).isSome = true) && (t.buf 9).any fun b => b.fill.isNone] : List Bool).all id = true := by decide +kernel

/-- LineWriteThenRead: a region that is not lost on a channel that serves. -/
theorem test_witness_line : (let s := pooled buf0
    decide ((s.pch 1).serves = true) && !(s.region (regionOf 1 5)).lost &&
      let g := s.writeLine wardenAsker 0 1 5 (List.replicate 64 0xA5) (List.replicate 64 true)
      decide (g.st = hsOk) && decide (g.s.lineData 1 5 = List.replicate 64 0xA5)) = true := by decide +kernel

/-- Pseudo-channel 3 changed. -/
def chan (f : Pch → Pch) : State := (pooled buf0).updPch 3 f
def hbmBg : Bg := { host := 0, seq := 0, code := 0x0704, tag := 7 }

/-- Screed blocks 0 and 1 serve as windows, and class 1 prefers screed. -/
def screedy : State :=
  let s := mea (pooled buf0) 0 fun x => { x with live := { x.live with pers := { x.live.pers with
    screeds := ⟨[(0, { bGate := true, b := { clk := 13 } }), (1, { bGate := true, b := { clk := 13 } })]⟩ } } }
  { s with pool := { s.pool with cls := ⟨[(1, some { size := 2, bw := 0, lat := 0, world := false, pref := 1 })]⟩ } }

/-- No channel but the buffer's serves. -/
def crowded : State := { pooled buf0 with hbm := { run0.hbm with pch := ⟨[(0, { st := .active }), (1, { st := .active })]⟩ } }

theorem test_witness_hbm : ([
  gives (.hbmMapSet 0) (on (chan id) 0x0701 [3, 0x20, 0x40, 0x80, 0x100]) stOk fun t => (t.pch 3).map.isSome,
  gives (.hbmMapSet 0) (on (chan id) 0x0701 [0, 0x20, 0x40, 0x80, 0x100]) stBusy,
  gives (.hbmQosSet 0) (on (chan id) 0x0702 [0x403, 0x123]) stOk fun t => decide ((t.pch 3).qos.get none 4 = some 0x123),
  gives (.hbmSrSet 0) (on (chan id) 0x0703 [3, 77]) stOk fun t => decide ((t.pch 3).srIdle = 77),
  gives (.hbmRetrain 0) (on (chan id) 0x0704 [0]) stBusy,
  done (.hbmRetrain 0) (on (chan id) 0x0704 [3]) fun t => decide ((t.pch 3).retrains = [(hbmBg, false)]),
  gives (.hbmRetrain 0) (on (chan fun x => { x with retrains := [({ hbmBg with host := 1 }, false)] }) 0x0704 [3]) stQueued,
  -- a channel with a live buffer, moved off first; and one whose buffer has nowhere to go
  decide ((screedy.planAll 0).isSome = true) && gives (.hbmRetrain 0) (on screedy 0x0704 [0x100]) stQueued fun t => decide ((t.pch 0).retrains.length = 1),
  decide (crowded.planAll 0 = none) && done (.hbmRetrain 0) (on crowded 0x0704 [0x100]) fun t =>
    decide (((t.mb 0).rsp.get {} 0).status = stQueued) && decide (((t.mb 0).rsp.get {} 1).status = stNoResource) && decide (t.pool = crowded.pool),
  done (.hbmRetrainRun 3) (chan fun x => { x with retrains := [(hbmBg, false)] }) fun t => decide ((t.pch 3).st = .retraining),
  done (.hbmRetrainDone 3 true 1) (chan fun x => { x with st := .retraining, retrains := [(hbmBg, true)] }) fun t => decide ((t.pch 3).st = .active),
  gives (.hbmRetrainDone 3 false 1) (on (chan fun x => { x with st := .retraining, retrains := [(hbmBg, false)] }) 0x0704 [3]) stFailed fun t =>
    decide ((t.pch 3).st = .failed),
  -- with four postponed no fifth: the refresh of bank 47 goes first and closes its row
  done (.hbmRefresh 3) (chan fun x => { x with refBank := 47, postponed := ⟨[(47, 4)]⟩, rows := ⟨[(47, some 9)]⟩ }) fun t =>
    decide ((t.pch 3).refBank = 0) && decide ((t.pch 3).postponed.get 0 47 = 0) && decide ((t.pch 3).rows.get none 47 = none),
  idle (.hbmCalibration 3) (chan id),
  done (.hbmTemperatureRead 0 86) (chan id) fun t => (t.pch 3).hot, done (.hbmTemperatureRead 0 79) (chan fun x => { x with hot := true }) fun t => !(t.pch 3).hot,
  done (.hbmTemperatureRead 0 85) (chan fun x => { x with hot := true }) fun t => (t.pch 3).hot,
  idle .hbmCeInterval (chan fun x => { x with ceCount := 5, corr := 9 }),
  done .hbmCeInterval (let s := chan fun x => { x with ceCount := 5, corr := 9 }; { s with tl := { s.tl with now := secU } }) fun t => decide ((t.pch 3).ceCount = 0) && decide ((t.pch 3).corr = 9),
  done (.hbmSelfRefreshEntry 3) (chan id) fun t => decide ((t.pch 3).st = .selfRefresh),
  idle (.hbmSelfRefreshExit 3) (chan fun x => { x with st := .selfRefresh }),
  done (.hbmSelfRefreshExit 3) (chan fun x => { x with st := .selfRefresh, retrains := [(hbmBg, false)] }) fun t => decide ((t.pch 3).st = .active),
  idle (.hbmSelfRefreshExit 3) { chan fun x => { x with st := .selfRefresh } with pwr := { run0.pwr with mode := .hold } }] : List Bool).all id = true := by decide +kernel

/-- A line of the buffer that has been written. -/
def written : State := ((pooled buf0).writeLine wardenAsker 0 0 0 (List.replicate 64 1) (List.replicate 64 true)).s
theorem test_witness_patrol : ([
  decide (written.patrolNext 0 = some 0) && decide (written.lineMark 0 0 = .ok) && decide (written.lineUpset 0 0 = {}) && decide (written.tagSees 0 0 = .data),
  done (.hbmPatrolRead 0 []) written fun t => decide ((t.pch 0).patrol = 1) && decide ((t.pch 0).corr = 0),
  -- without the tag two wrong symbols are corrected and three found; with it one and two
  decide (codeSays false 2 = .corrected) && decide (codeSays false 3 = .uncorrectable) && decide (codeSays true 1 = .corrected) &&
    decide (codeSays true 2 = .uncorrectable) && decide (upsetSymbols { bits := 0x10001 } = 2),
  done (.hbmPatrolRead 0 [(0, { bits := 0x10001 })]) written fun t => decide (t.lineMark 0 0 = .ok) && decide ((t.pch 0).corr = 1) &&
    decide ((t.lineUpset 0 0).bits = 0),
  done (.hbmPatrolRead 0 [(0, { bits := 0x1010001 })]) written fun t => decide (t.lineMark 0 0 = .poison) && decide ((t.pch 0).uncorr = 1)] : List Bool).all id = true := by decide +kernel

/-- A pool whose buffer is migrating to channels 4 and 5, at a boundary. -/
def migrating (bound : Nat) (dest : Place := .hbm 1024 [(4, [0]), (5, [0])]) : State :=
  let s := pooled buf0
  { s with pool := { s.pool with mig := [{ handle := 9, dest := dest, bound := bound, cmds := [] }] } }
def sliced : State := let s := pooled buf0; { s with pool := { s.pool with slice := ⟨[(5, some (9, 0))]⟩ } }

theorem test_witness_pool : ([
  gives (.poolClassDefine 0) (on run0 0x0601 [0x305, 7]) stOk fun t => (t.cls 5).isSome,
  gives (.bufferAlloc 0) (on screedy 0x0602 [1]) stOk fun t => (t.buf 1).isSome,
  gives (.bufferAlloc 0) (on { pooled buf0 with hbm := {} } 0x0602 [1]) stNoResource,
  gives (.bufferFree 0) (on (pooled buf0) 0x0603 [9]) stOk fun t => (t.buf 9).isNone,
  gives (.bufferFree 0) (on sliced 0x0603 [9]) stBusy,
  gives (.bufferQuery 0) (on (pooled buf0) 0x0605 [9]) stOk,
  gives (.bufferMigrate 0) (on screedy 0x0604 [9]) stQueued fun t => decide (t.pool.mig.length = 1),
  gives (.bufferMigrate 0) (on { pooled buf0 with hbm := {} } 0x0604 [9]) stNoResource,
  gives (.poolExclude 0) (on (pooled buf0) 0x0606 [0x103]) stOk fun t => decide (t.pool.excl = [3]),
  gives (.poolExcludeLift 0) (on (pooled buf0) 0x0606 [0x003]) stIgnored,
  gives (.poolExclude 0) (on screedy 0x0606 [0x100]) stQueued fun t => decide (t.pool.excl = [0]) && decide (t.pool.mig.length = 1) && decide (t.pool.moves.length = 1),
  gives (.poolExclude 0) (on crowded 0x0606 [0x100]) stNoResource fun t => decide (t.pool.excl = [0]) && t.pool.mig.isEmpty,
  gives (.poolExclude 0) (on (let s := pooled buf0; { s with pool := { s.pool with excl := [3] } }) 0x0606 [0x103]) stIgnored,
  gives (.poolExcludeLift 0) (on (let s := pooled buf0; { s with pool := { s.pool with excl := [3] } }) 0x0606 [0x003]) stOk fun t => decide (t.pool.excl = []),
  gives (.apertureMap 0) (on (pooled buf0) 0x0607 [0x20006, 9]) stOk fun t => decide (t.sliceAt 7 = some (9, 2 ^ 26)),
  gives (.apertureUnmap 0) (on sliced 0x0608 [0x20004]) stOk fun t => decide (t.sliceAt 5 = none),
  gives (.apertureUnmap 0) (on sliced 0x0608 [0x20006]) stIgnored,
  gives (.apertureQuery 0) (on sliced 0x0609 [5]) stOk,
  done (.migrationComplete 9) (migrating 2) fun t => decide (t.buf 9 = some { buf0 with place := .hbm 1024 [(4, [0]), (5, [0])] }) && t.pool.mig.isEmpty,
  done (.handleTranslationMiss (.host 0) 9) (pooled buf0) fun t => decide (t.hg.cache.length = 1),
  decide ((pooled buf0).chanSet false 0 2 [0, 1] = some [2])] : List Bool).all id = true := by decide +kernel

/-- MigrationRuns: a granule is copied; a placement on lines that do not exist stops the step. -/
theorem test_witness_migration : (done (.migrationStep 9) (migrating 0) fun t => decide ((t.migOf 9).map (·.bound) = some 1)) = true ∧
    ((pooled { buf0 with place := .hbm 1024 [(0, [2 ^ 25])] }).linesExist 9 = false) := by refine ⟨by decide +kernel, by decide⟩

/-! ## Stipple engines -/

/-- The word of a bundle (R156): AOP, AD, AS1, AS2, AX, and slots 0 and 1 of (MOP, MW, MA, MM, MAM, MLN). -/
def slotBits (mop mw ma mm mam mln : Nat) : Nat := pack [(mop, 14), (mw, 10), (ma, 7), (mm, 4), (mam, 2), (mln, 0)]
def bun (aop ad as1 as2 ax : Nat) (s0 : Nat := 0) (s1 : Nat := 0) : Nat :=
  pack [(aop, 52), (ad, 48), (as1, 44), (as2, 40), (ax, 36), (s0, 18), (s1, 0)]
/-- The word of a control operation (R158). -/
def ctl (cop ca cb cx imm : Nat) : Nat := pack [(1, 60), (cop, 52), (ca, 48), (cb, 44), (cx, 32), (imm, 0)]

/-- Engine 0 runs a task of entry 0 and stands at index 5 before an instruction word. -/
def engine (word : Nat) (f : Engine → Engine := id) : State := { run0 with
  stp := { run0.stp with eng := ⟨[(0, f { task := some 0, st := .running, pc := 5 })]⟩ }
  mem := { run0.mem with pmem := ⟨[(5, BitVec.ofNat 64 word)]⟩ } }
def eng0 (t : State) : Engine := t.eng 0

/-- The engine issues the instruction at index 5, whose word means `i`, with nothing that stops it. -/
def issues (s : State) (i : Ins → Bool) : Bool :=
  s.issues 0 && !s.mem.pmemBad.get false 5 && i (s.insAt 0 5) && ((eng0 s).breakAt 0 5).isNone && !(eng0 s).watched &&
    !(eng0 s).wdExpired && decide ((eng0 s).st ≠ .stepping)

/-- The rows of the arithmetic operations by AOP (R164). -/
def arithRows : List (Nat × Instr) :=
  [(0x00, .opAnop 0), (0x10, .opCmac2 0), (0x11, .opCdot 0), (0x18, .opXmac2 0), (0x19, .opXdot 0), (0x20, .opRnd2 0), (0x21, .opXrnd2 0),
   (0x22, .opAclr 0), (0x23, .opAmov 0), (0x24, .opAadd 0), (0x25, .opExpa 0), (0x26, .opNorma 0), (0x27, .opAshr 0)] ++
  [(0x30, .opAdd4 0), (0x31, .opSub4 0), (0x32, .opBfly 0), (0x34, .opShl4 0), (0x35, .opShra4 0), (0x36, .opAnd 0), (0x37, .opOr 0),
   (0x38, .opXor 0), (0x39, .opMov 0), (0x3A, .opConj 0), (0x3B, .opSwap 0), (0x3C, .opExpw 0), (0x3D, .opCmpw 0)]

theorem test_witness_arithmeticIssues : (arithRows.all fun r =>
    let s := engine (bun r.1 1 2 3 0)
    issues s (hasAop r.1) && done r.2 s fun t => decide ((eng0 t).pc = 6) && decide (t.stp.row = s.stp.row)) = true := by decide +kernel
theorem test_witness_mnop : done (.opMnop 0) (engine (bun 0x30 1 2 3 0)) (fun t => decide ((eng0 t).pc = 6)) = true := by decide

/-- An engine whose W1 and W2 hold lanes, and accumulators as given. -/
def lanes (a b : List Int) (acc : Tab Acc := {}) (arith : BitVec 32 := 0xCF) : Engine :=
  { w := ⟨[(1, ofLanes a), (2, ofLanes b)]⟩, acc := acc, arith := arith }
/-- The operation `aop` on W1, W2 (accumulator 1 or 0-1) into register 3. -/
def op (x : Engine) (aop : Nat) (ax : Nat := 0) (ad : Nat := 3) (as1 : Nat := 1) : Engine :=
  x.arithOp { v := false, aop := aop, ad := ad, as1 := as1, as2 := 2, ax := ax, s0 := decodeSlot 0, s1 := decodeSlot 0 } 0
def out4 (x : Engine) : List Int := (List.range 4).map (laneS (x.w.get 0 3))
def accI (x : Engine) (n : Nat) : Int × Int := ((x.accOf n).re.toInt, (x.accOf n).im.toInt)

/-- R163, R164: results of the arithmetic operations, worked by hand. -/
theorem test_witness_arithmeticResults : ([
  decide (out4 (op (lanes [1, -2, 32767, 4] [5, 6, 1, -8]) 0x30 1) = [6, 4, 32767, -4]),
  decide (out4 (op (lanes [1, -2, 32767, 4] [5, 6, 1, -8]) 0x30 0) = [6, 4, -32768, -4]),
  decide (out4 (op (lanes [1, -2, -32768, 4] [5, 6, 1, -8]) 0x31 1) = [-4, -8, -32768, 12]),
  -- half of 32767 - (-32768) rounds to 32768, which wraps and is reported (R154, R164)
  (let x := op (lanes [32767, 4, -32768, 2] [0, 0, 0, 0]) 0x32 2; decide (out4 x = [0, 3, -32768, 1]) && x.oovf),
  decide (out4 (op (lanes [1, -2, 3, 4] [0, 0, 0, 0]) 0x34 3) = [8, -16, 24, 32]),
  decide (out4 (op (lanes [3, -3, 5, -32768] [0, 0, 0, 0]) 0x35 1) = [2, -1, 3, -16384]),
  decide (out4 (op (lanes [12, 3, 5, 7] [10, 1, 4, 0]) 0x36) = [8, 1, 4, 0]),
  decide (out4 (op (lanes [12, 3, 5, 7] [10, 1, 4, 0]) 0x37) = [14, 3, 5, 7]),
  decide (out4 (op (lanes [12, 3, 5, 7] [10, 1, 4, 0]) 0x38) = [6, 2, 1, 7]),
  decide (out4 (op (lanes [12, 3, 5, 7] [0, 0, 0, 0]) 0x39) = [12, 3, 5, 7]),
  decide (out4 (op (lanes [12, -32768, 5, 7] [0, 0, 0, 0]) 0x3A) = [12, 32767, 5, -7]),
  decide (out4 (op (lanes [1, 2, 3, 4] [0, 0, 0, 0]) 0x3B) = [3, 4, 1, 2]),
  (let x := op (lanes [1, 2, 3, 4] [5, 2, 3, 4]) 0x3D; !x.z && x.n),
  -- (2 + 3i)(5 + 7i) = -11 + 29i, (1 + i)(1 - i) = 2, added to what ACC2 and ACC3 hold
  (let x := op (lanes [2, 3, 1, 1] [5, 7, 1, -1] ⟨[(2, { re := 100 }), (3, { im := 10 })]⟩) 0x10 0 2
   decide (accI x 2 = (89, 29)) && decide (accI x 3 = (2, 10))),
  decide (accI (op (lanes [2, 3, 1, 1] [5, 7, 1, -1]) 0x11 4 3) 3 = (-9, 29)),
  decide (accI (op (lanes [2, 3, 0, 0] [5, 7, 0, 0]) 0x11 5 3) 3 = (2 * 5 + 3 * 7, 3 * 5 - 2 * 7)),
  decide (accI (op (lanes [] [] ⟨[(3, { re := 5, im := 6 })]⟩) 0x22 0 3) 3 = (0, 0)),
  decide (accI (op (lanes [] [] ⟨[(1, { re := 5, im := 6 })]⟩) 0x23 0 3) 3 = (5, 6)),
  -- SHIFT 15: 3 * 2^14 rounds to 2, -3 * 2^14 to -1
  decide (out4 (op (lanes [] [] ⟨[(0, { re := 3 * 2 ^ 14, im := BitVec.ofInt 48 (-3 * 2 ^ 14) }), (1, { re := 2 ^ 46 })]⟩) 0x20 0 3 0) =
    [2, -1, 32767, 0])] : List Bool).all id = true := by decide +kernel

/-- An engine that stands before a memory operation on W1 and A2, with post-add of M3 = 24 bytes. Data-memory bytes 16 and 17
hold 0xAB and 0xCD. -/
def mem0 (mop : Nat) (addr : BitVec 24) (mln : Nat := 0) (resv : Option Nat := none) : State :=
  let s := engine (bun 0 0 0 0 0 (slotBits mop 1 2 3 1 mln)) fun x =>
    { x with w := ⟨[(1, 0x1122334455667788)]⟩, a := ⟨[(2, addr)]⟩, m := ⟨[(3, 24)]⟩, resv := resv }
  { s with mem := { s.mem with dmem := ⟨[(16, 0xAB), (17, 0xCD)], 0⟩ } }
def rd (t : State) (a n : Nat) : Nat := leNat (t.mem.dmem.readN a n)
/-- It issued: the next instruction, A2 moved by M3. -/
def moved (t : State) (a : BitVec 24) : Bool := decide ((eng0 t).pc = 6) && decide ((eng0 t).a.get 0 2 = a)
/-- The only load in flight. -/
def load (t : State) : List (Nat × BitVec 4 × Nat × Nat) := (eng0 t).loads.map fun l => (l.reg, l.lanes, l.value.toNat, l.due)

theorem test_witness_memoryOps : ([
  issues (mem0 1 16) (hasMop 1) && done (.opLd 0) (mem0 1 16) fun t => moved t 40 && decide (load t = [(1, 0xF, 0xCDAB, 3)]),
  done (.opLdh 0) (mem0 3 16 1) fun t => moved t 40 && decide (load t = [(1, 0xC, 0xCDAB * 2 ^ 32, 3)]),
  done (.opLdl 0) (mem0 5 16 3) fun t => moved t 40 && decide (load t = [(1, 0x8, 0xCDAB * 2 ^ 48, 3)]),
  done (.opLdb 0) (mem0 7 16) fun t => moved t 40 && decide (load t = [(1, 0xF, 0xCDABCDABCDABCDAB, 3)]),
  done (.opLdx 0) (mem0 8 16) fun t => moved t 40 && decide ((eng0 t).resv = some 2) && (eng0 t).locked,
  done (.opSt 0) (mem0 2 16) fun t => moved t 40 && decide (rd t 16 8 = 0x1122334455667788) && decide (rd t 24 8 = 0),
  done (.opSth 0) (mem0 4 20 1) fun t => moved t 44 && decide (rd t 16 8 = 0x112233440000CDAB),
  done (.opStl 0) (mem0 6 16 2) fun t => moved t 40 && decide (rd t 16 2 = 0x3344),
  -- XOR of what the word holds, through the first alias
  done (.opSt 0) (mem0 2 (0x10000 + 16)) fun t => decide (rd t 16 2 = aliasByte 1 0xAB 0x88 + 256 * aliasByte 1 0xCD 0x77),
  done (.opStx 0) (mem0 9 16 0 (some 2)) fun t => moved t 40 && (eng0 t).lkok && decide (rd t 16 8 = 0x1122334455667788),
  done (.opStx 0) (mem0 9 16 0 none) fun t => moved t 40 && !(eng0 t).lkok && decide (rd t 16 8 = 0xCDAB),
  done (.opQpush 0) (mem0 0xA 98303 2) fun t => decide ((eng0 t).stage = [.push 98303 2 0x1122334455667788]),
  done (.opQpush 0) (mem0 0xA 98304) fun t => decide ((eng0 t).abort = some .badTarget),
  done (.opToken 0) (mem0 0xB 7 3) fun t => decide ((eng0 t).stage = [.token 7 3 0x1122334455667788])] : List Bool).all id = true := by decide

/-- R159: bytes reached from A0 = 0 by successive bit-reverse updates with M0 = 32. -/
theorem test_bit_reverse : ((List.range 8).map fun n => (List.range n).foldl (fun a _ => addrUpdate 3 a 32) 0) =
    [0, 32, 16, 48, 8, 40, 24, 56] := by decide

/-- Before a control operation; a bundle of no operation stands at every index from 6 to 12. -/
def ctl0 (word : Nat) (f : Engine → Engine := id) : State :=
  let s := engine word fun x => f { x with w := ⟨[(1, 0x1234567)]⟩, a := ⟨[(1, 0xFFFFFF), (2, 3)]⟩ }
  { s with mem := { s.mem with pmem := ⟨[(5, BitVec.ofNat 64 word)]⟩ } }
def pcIs (t : State) (p : BitVec 11) : Bool := decide ((eng0 t).pc = p)
def xfer0 : Xfer := { put := false, loc := 0, handle := 1, off := 0, len := 8, world := false }

theorem test_witness_controlOps : ([
  issues (ctl0 (ctl 0 0 0 0 0)) (hasCop 0) && done (.opCnop 0) (ctl0 (ctl 0 0 0 0 0)) (pcIs · 6),
  done (.opBr 0) (ctl0 (ctl 1 0 0 0 100)) (pcIs · 100), done (.opBr 0) (ctl0 (ctl 1 1 0 0 100)) (pcIs · 6),
  done (.opCall 0) (ctl0 (ctl 2 0 0 0 9)) fun t => pcIs t 9 && decide ((eng0 t).stack.get 0 0 = 6) && decide ((eng0 t).depth = 1),
  done (.opCall 0) (ctl0 (ctl 2 0 0 0 9) fun x => { x with depth := 8 }) fun t => decide ((eng0 t).abort = some .stack),
  done (.opRet 0) (ctl0 (ctl 3 0 0 0 0) fun x => { x with stack := ⟨[(0, 1), (1, 9)]⟩, depth := 2 }) fun t => pcIs t 9 && decide ((eng0 t).depth = 1),
  done (.opRet 0) (ctl0 (ctl 3 0 0 0 0)) fun t => decide ((eng0 t).abort = some .stack) && pcIs t 5,
  done (.opRepeat 0) (ctl0 (ctl 4 0 0 0 7)) fun t => pcIs t 6 && decide ((eng0 t).rep = some 7),
  done (.opRepeat 0) (ctl0 (ctl 4 0 2 1 0)) fun t => decide ((eng0 t).rep = some 3), done (.opRepeat 0) (ctl0 (ctl 4 0 0 0 0)) (pcIs · 7),
  done (.opLoop 0) (ctl0 (ctl 5 0 0 2 (12 * 2 ^ 16 + 4))) fun t => pcIs t 6 && decide ((eng0 t).loop = some (6, 12, true)) && decide ((eng0 t).lcount = 4),
  done (.opLoop 0) (ctl0 (ctl 5 0 0 0 (12 * 2 ^ 16))) fun t => pcIs t 13 && decide ((eng0 t).loop = none),
  done (.opEnd 0) (ctl0 (ctl 6 0 0 0 0)) fun t => (eng0 t).ending,
  done (.opSeta 0) (ctl0 (ctl 7 3 0 0 0xABCDEF)) fun t => decide ((eng0 t).a.get 0 3 = 0xABCDEF),
  done (.opSetm 0) (ctl0 (ctl 8 3 0 0 0xABCDEF01)) fun t => decide ((eng0 t).m.get 0 3 = 0xABCDEF01),
  done (.opAdda 0) (ctl0 (ctl 9 1 0 0 2)) fun t => decide ((eng0 t).a.get 0 1 = 1),
  done (.opCmpa 0) (ctl0 (ctl 0xA 1 0 1 0)) fun t => !(eng0 t).z && (eng0 t).n,
  done (.opCmpa 0) (ctl0 (ctl 0xA 2 2 0 0)) fun t => (eng0 t).z && !(eng0 t).n,
  done (.opMvw 0) (ctl0 (ctl 0xB 1 0 2 0xBEEF)) fun t => decide ((eng0 t).w.get 0 1 = 0xBEEF01234567),
  done (.opMvs 0) (ctl0 (ctl 0xC 3 0 0 0)) fun t => decide ((eng0 t).w.get 0 3 = 0xCF),
  done (.opMsv 0) (ctl0 (ctl 0xD 1 0 0 0)) fun t => decide ((eng0 t).arith = 0x67),
  done (.opMvaw 0) (ctl0 (ctl 0xE 3 1 0 0)) fun t => decide ((eng0 t).a.get 0 3 = 0x234567),
  done (.opMvwa 0) (ctl0 (ctl 0xF 3 1 0 0)) fun t => decide ((eng0 t).w.get 0 3 = 0xFFFFFF),
  done (.opVmov 0) (ctl0 (ctl 0x10 1 0 63 0)) fun t => decide ((eng0 t).v.get 0 63 = 0x1234567),
  done (.opWmov 0) (ctl0 (ctl 0x11 3 0 63 0) fun x => { x with rbase := 2, v := ⟨[(1, 9)]⟩ }) fun t => decide ((eng0 t).w.get 0 3 = 9),
  done (.opHget 0) (ctl0 (ctl 0x12 2 1 0 4096)) fun t => decide ((eng0 t).xfers =
    [{ put := false, loc := 0, handle := 0x34567, off := 0x10, len := 4096, world := false }]),
  done (.opHput 0) (ctl0 (ctl 0x13 2 1 0 8)) fun t => decide (((eng0 t).xfers.map Xfer.put) = [true]),
  done (.opHwait 0) (ctl0 (ctl 0x14 0 0 0 1) fun x => { x with xfers := [xfer0] }) (pcIs · 6),
  done (.opHwait 0) (ctl0 (ctl 0x14 0 0 0 0) fun x => { x with xfers := [xfer0] }) fun t => pcIs t 5 && decide ((eng0 t).cycles = 1)] : List Bool).all id = true := by decide

/-! ## Task schedulers and hedgerow -/

/-- Entry 3 needs slots 0 and 1 and has slot 0. -/
def entry3 : Entry := { st := .filling, slotmask := 3, filled := 1, rowset := 1, leadsel := 2, pc := 9 }
def sched (f : Entry → Entry := id) (commit : List Commit := []) : State := { run0 with stp := { run0.stp with
  ent := ⟨[(3, f entry3)]⟩, sch := ⟨[(0, { commit := commit })]⟩ } }
def tok (k : Nat) : Commit := { item := .token 3 k 0x55, world := false, rsv := false }
def filled (t : State) : Bool := decide ((t.ent 3).filled = 3) && (t.ent 3).eval && decide ((t.ent 3).ops.get 0 1 = 0x55)
/-- Queue 0 of skim block 0 forwards its word 0x55 to slot 1 of entry 3. -/
def forwarding : State :=
  let s := queued 1 [word0] []
  { s with que := { s.que with q := s.que.q.upd {} 0 fun q => { q with fwd := some (2 ^ 63 + 2 ^ 17 + 3) } }, stp := sched.stp }
/-- Slot 5 of host 0 releases token 0x55 to slot 1 of entry 3. -/
def releasing : State := meets <| armed { sched with tl := { run0.tl with now := 100 * nsU } } 5 (100 * nsU) (entry 0x0501 3 (0x55 * 2 ^ 16 + 1))

theorem test_witness_operands : ([
  decide (sched.opCheck 3 1 false = .taken) && done (.operandWrite (.commit 0) 3 1 0x55) (sched id [tok 1]) fun t => filled t && decide ((t.sch 0).commit = []),
  idle (.operandWrite (.commit 0) 3 0 0x55) (sched id [tok 0]),
  done (.operandWrite (.hedgerow 1) 3 1 0x55) { sched with stp := { sched.stp with sch := ⟨[(1, { arrivals := [tok 1] })]⟩ } } fun t =>
    filled t && decide ((t.sch 1).waiting = []),
  done (.operandWrite (.hedgerow 0) 3 1 0x55) { sched with stp := { sched.stp with sch := ⟨[(0, { arrivals := [tok 1] })]⟩ } } fun t =>
    filled t && decide ((t.sch 0).waiting = []),
  done (.operandWrite (.forward 0) 3 1 0x55) forwarding fun t => filled t && decide ((t.queue 0).drain = []),
  done (.queueForwardOffer 0) forwarding fun t => filled t && decide ((t.queue 0).drain = []),
  decide ((releasing.cue 5).opSlot = 1) && decide ((releasing.cue 5).token = 0x55) && done (.operandWrite (.cue 5) 3 1 0x55) releasing filled] : List Bool).all id = true := by decide +kernel

def evald (delay : BitVec 16) : State := sched fun x => { x with filled := 3, eval := true, delay := delay }
def readied : State := let s := sched fun x => { x with st := .ready, filled := 3 }
  { s with stp := { s.stp with sch := ⟨[(0, { ready := [3], resv := 0 })]⟩ } }
def working (f : Engine → Engine := id) (g : Entry → Entry := id) : State :=
  let s := sched (fun x => g { x with st := .running, ops := ⟨[(0, 7)]⟩ })
  { s with stp := { s.stp with eng := ⟨[(0, f { task := some 3, st := .running, wdogOn := true })]⟩, sch := ⟨[(0, { resv := 32 })]⟩ } }
/-- The scheduler of heath 0 holds credits on queue 0 and has a word for it. -/
def pushing : State :=
  let s := queued 0 [] []
  { s with
    stp := { run0.stp with sch := ⟨[(0, { commit := [{ item := .push 0 1 0x99, world := false, rsv := false }] })]⟩ }
    que := { s.que with q := s.que.q.upd {} 0 fun q => { q with slots := ⟨[(2, { src := srcCode 2 0, grant := 4, held := 4 })]⟩ } } }

/-- The device with the first line of buffer 9 written, and no latency target on ports 6 and 7 of its channels. -/
def onBuf (s : State) : State :=
  each [0, 1] (fun p s => s.updPch p fun x => { x with qos := ⟨[(6, some 0), (7, some 0)]⟩ })
    { s with pool := written.pool, hbm := written.hbm, scrim := written.scrim }

theorem test_witness_tasks : ([
  done (.taskReadinessEval 3) (evald 0) fun t => decide ((t.ent 3).st = .ready) && decide ((t.sch 0).ready = [3]),
  done (.taskReadinessEval 3) (evald 5) fun t => decide ((t.ent 3).st = .delayed) && decide ((t.ent 3).due = 5),
  decide (readied.chooseEngine 0 (readied.ent 3) = some 0) && decide (readied.canReserve 0 (readied.ent 3) = true) &&
    done (.taskDispatch 0) readied fun t => decide ((t.ent 3).st = .dispatched) && decide ((t.eng 0).prefetch = some 3) && decide ((t.sch 0).resv = 32),
  idle (.taskDispatch 0) run0,
  done (.taskStart 0) { sched with stp := { sched.stp with eng := ⟨[(0, { prefetch := some 3 })]⟩ } } fun t =>
    decide ((t.eng 0).task = some 3) && decide ((t.eng 0).pc = 9) && decide ((t.eng 0).wdog = 1000),
  done (.taskCommit 0) (working fun x => { x with ending := true, stage := [.token 4 0 8] }) fun t =>
    decide ((t.eng 0).task = none) && decide ((t.ent 3).st = .free) && decide ((t.sch 0).commit.map Commit.item = [.token 4 0 8]) && decide ((t.sch 0).resv = 0),
  done (.commitBufferDelivery 0 0) (sched id [tok 1]) filled,
  done (.commitBufferDelivery 0 0) pushing fun t => decide ((t.queue 0).fill.map QWord.data = [0x99]) && decide ((t.sch 0).commit = []),
  -- of two words for one slot the second waits; one that came over the hedgerow stands behind the buffer
  idle (.commitBufferDelivery 0 1) (sched id [tok 0, { tok 0 with world := true }]),
  done (.commitBufferDelivery 0 1) { sched with stp := { sched.stp with sch := ⟨[(0, { commit := [tok 0], arrivals := [tok 1] })]⟩ } } fun t =>
    filled t && decide ((t.sch 0).waiting = [tok 0]),
  done (.engineWatchdogExpiry 0) (working) fun t => decide ((t.eng 0).abort = some .watchdog),
  done (.engineWatchdogExpiry 0) (working fun x => { x with rep := some 4 }) fun t => (t.eng 0).wdExpired && decide ((t.eng 0).abort = none),
  done (.taskAbortComplete 0) (working (fun x => { x with abort := some .watchdog }) fun x => { x with retry := 2 }) fun t =>
    decide ((t.ent 3).st = .ready) && decide ((t.ent 3).retry = 3) && decide ((t.sch 0).ready = [3]),
  done (.taskAbortComplete 0) (working (fun x => { x with abort := some .watchdog }) fun x => { x with retry := 3 }) fun t => decide ((t.ent 3).st = .held),
  done (.taskAbortComplete 0) (working fun x => { x with abort := some .illegal }) fun t => decide ((t.ent 3).st = .held),
  done (.hedgerowTransferEnd 0 0) (onBuf (working fun x => { x with w := ⟨[(1, 1)]⟩, xfers := [{ xfer0 with handle := 9 }] })) fun t => decide ((t.eng 0).xfers = []),
  -- a second transfer of the engine to the line of an earlier one waits for it; one to another buffer does not
  idle (.hedgerowTransferEnd 0 1) (onBuf (working fun x => { x with w := ⟨[(1, 1)]⟩, xfers := [{ xfer0 with handle := 9 }, { xfer0 with handle := 9, off := 56 }] })),
  done (.hedgerowTransferEnd 0 1) (onBuf (working fun x => { x with w := ⟨[(1, 1)]⟩, xfers := [{ xfer0 with handle := 9 }, { xfer0 with handle := 8 }] })) fun t =>
    decide ((t.eng 0).xfers = [{ xfer0 with handle := 9 }])] : List Bool).all id = true := by decide +kernel

def ent3 (st : EntState) : State := sched fun x => { x with st := st }
def row0 (f : Row → Row) : State := { run0 with stp := { run0.stp with row := ⟨[(0, f {})]⟩, eng := ⟨[(1, { prefetch := none, stage := [.token 1 1 1] })]⟩ } }
def rowBg : Bg := { host := 0, seq := 0, code := 0x0A05, tag := 7 }
/-- The row image of ROW_LOAD: the first 64 bytes of buffer 9. -/
def rowLoad : State := let s := onBuf run0
  { s with stp := { s.stp with row := ⟨[(0, { loads := [({ rowBg with code := 0x0801 }, 9, 0, 64, true)], draining := true })]⟩ } }

theorem test_witness_entriesRows : ([
  gives (.taskEntrySet 0) (on (ent3 .idle) 0x0805 [3, 5 * 2 ^ 47, 7 * 2 ^ 36 + 3 * 2 ^ 32]) stOk fun t =>
    decide ((t.ent 3).pc = 7) && decide ((t.ent 3).outq0 = 5) && decide ((t.ent 3).slotmask = 3),
  gives (.taskEntrySet 0) (on (ent3 .ready) 0x0805 [3, 0, 0]) stBusy,
  gives (.taskEntryClear 0) (on (ent3 .filling) 0x0806 [3]) stOk fun t => decide (t.ent 3 = {}) && decide (((t.mb 0).rsp.get {} 0).res = [1]),
  gives (.taskEntryRetry 0) (on (ent3 .held) 0x0807 [3]) stOk fun t => decide ((t.sch 0).ready = [3]),
  gives (.taskEntryRetry 0) (on (ent3 .filling) 0x0807 [3]) stIgnored,
  gives (.taskEntryQuery 0) (on (ent3 .filling) 0x0808 [3]) stOk fun t =>
    decide (((t.mb 0).rsp.get {} 0).res = [0, BitVec.ofNat 64 (2 * 2 ^ 61 + 2 * 2 ^ 55 + 2 ^ 47 + 9 * 2 ^ 36 + 3 * 2 ^ 32 + 2 ^ 28), 0, 0, 0, 0]),
  gives (.rowConfigure 0) (on run0 0x0802 [1, 500 + 2 * 2 ^ 24]) stOk fun t => decide ((t.row 1).period = 500) && decide ((t.row 1).limit = 2),
  gives (.rowReset 0) (on (row0 id) 0x0803 [0]) stOk fun t => (t.row 0).resetSince && decide ((t.eng 1).stage = []),
  gives (.rowSelftest 0) (on run0 0x0A05 [1]) stQueued fun t => decide ((t.row 1).tests = [rowBg]) && (t.row 1).draining,
  gives (.rowLoad 0) (on (pooled buf0) 0x0801 [1, 9, 64]) stQueued fun t => decide (((t.row 1).loads.map fun l => l.2.1) = [9]),
  gives (.engineReset 0) (on (working fun x => { x with stage := [.token 1 1 1] }) 0x0804 [0]) stOk fun t => decide ((t.eng 0).task = none) && decide ((t.ent 3).st = .ready),
  done (.rowSelftestRun 0) (row0 fun x => { x with tests := [rowBg], draining := true }) fun t => (t.row 0).testing,
  done (.rowSelftestDone 0 true) (row0 fun x => { x with tests := [rowBg], testing := true, offline := true }) fun t => (t.row 0).offline && decide ((t.row 0).tests = []),
  done (.rowSelftestDone 0 false) (row0 fun x => { x with tests := [rowBg], testing := true }) fun t => (t.row 0).offline,
  decide ((rowLoad.bufRead (forCommand 0 true) 9 0 64).st = hsOk) && decide (rowLoad.rowDrained 0 = true)] : List Bool).all id = true := by decide +kernel

/-- Buffer 9, screed block 0 as a window, data memory, a hedgerow queue and a token. -/
def net (cons : BitVec 2 := 2) : State :=
  let s := onBuf (queued cons [word0] [])
  { s with
    que := { s.que with q := s.que.q.upd {} 0 fun q => { q with slots := ⟨[(1, { src := srcCode 4 0, grant := 16, held := 16 })]⟩ } }
    stp := { run0.stp with ent := ⟨[(3, { entry3 with world := true })]⟩ } }
/-- The status and the first data bytes of the last response. -/
def answer (t : State) : Option (BitVec 3 × List Byte) := t.hg.resp.getLast?.map fun p => (p.status, p.data.take 2)
def answered (i : Instr) (s : State) (st : BitVec 3) (data : List Byte := []) : Bool := done i s fun t => decide (answer t = some (st, data))
/-- The direct address of byte `o` of data-memory window 0. -/
def dm (o : Nat) : BitVec 56 := BitVec.ofNat 56 (2 * 2 ^ 37 + o)
def owing : State := { net with hg := { net.hg with wait := [({ kind := 4, index := 0 }, 6)] } }
def responded : State := { net with hg := { net.hg with resp := [{ who := { kind := 6, index := 0 }, tag := 6, status := hsOk, data := [9] }] }
                                    dbg := { net.dbg with op := some 0x40 } }

def erring (s : State) : State := { s with que := { s.que with q := s.que.q.upd {} 0 fun q => { q with drain := [{ word0 with err := true }] } } }
def heldS (s : State) : State := { s with pwr := { s.pwr with mode := .hold } }

theorem test_witness_hedgerow : ([
  net.alive && net.mayIssue .warden (some 6) && net.mayIssue .warden none && decide (net.linesExist 9 = true) && decide (net.heldInHold 9 = false),
  answered (.hedgerowBread .warden 6 9 0 8) net hsOk [1, 1], answered (.hedgerowBread .warden 6 9 0 4104) net hsRange, answered (.hedgerowBread .warden 6 9 0 4) net hsRange,
  answered (.hedgerowBwrite .warden 6 9 0 (List.replicate 8 1) (List.replicate 8 true)) net hsOk,
  answered (.hedgerowDread .warden 6 (dm 8) 8) net hsOk [0, 0], answered (.hedgerowDread .warden 6 (dm 0x40000) 16) net hsRange,
  answered (.hedgerowDread .warden 6 0 8) net hsRange,
  done (.hedgerowDwrite .warden 6 (dm 8) (List.replicate 8 1) (List.replicate 8 true)) net fun t => decide (t.mem.dmem.read 8 = 1),
  done (.hedgerowQpush ⟨.warden, true⟩ 0 1 0x77) net fun t => decide ((t.queue 0).fill.map QWord.data = [0x77]),
  done (.hedgerowToken ⟨.warden, true⟩ 3 1 0x55) net filled,
  answered (.hedgerowQpeek .warden 6 0) net hsOk [0x55, 0],
  done (.hedgerowQpop .warden 6 0 0) net fun t => decide (answer t = some (hsOk, [])) && decide ((t.queue 0).drain = []),
  done (.hedgerowQpop .warden 6 0 1) net fun t => decide (answer t = some (hsError, [])) && decide ((t.queue 0).popIgn = 1),
  -- a head word with an uncorrectable error
  answered (.hedgerowQpeek .warden 6 0) (erring net) hsError [0x55, 0], answered (.hedgerowQpop .warden 6 0 0) (erring net) hsError,
  -- accesses of HBM lines in HOLD
  done (.hedgerowBread .warden 6 9 0 8) (heldS net) fun t => decide (t.hg.held.length = 1) && decide (t.hg.wait = [({ kind := 4, index := 0 }, 6)]) && decide (t.hg.resp = []),
  -- a run that crosses a 64 KiB alias wraps inside the engine's memory
  done (.hedgerowDwrite .warden 6 (dm 0xFFF8) (List.replicate 16 1) (List.replicate 16 true)) net fun t =>
    decide (t.mem.dmem.read 0xFFF8 = 1) && decide (t.mem.dmem.read 0x10000 = 0),
  done (.hedgerowResponse .debug 6) responded fun t => decide (t.dbg.op = none) && decide (t.dbg.data = 9) && decide (t.hg.resp = []),
  done (.hedgerowTimeout .warden 6) owing fun t => decide (answer t = some (hsTimeout, [])) && decide (t.hg.wait = [])] : List Bool).all id = true := by decide +kernel

/-- HedgerowTransactions: a buffer on lines that do not exist stops the access. -/
theorem test_witness_noSuchLine : (match exec (.hedgerowBread .warden 6 9 0 8) (pooled { buf0 with place := .hbm 1024 [(0, [2 ^ 25])] }) with
    | .fault .noSuchLine => true | _ => false) = true := by decide

/-- Link 2 of edge 1, with retries counted and the other links as given. -/
def links (retries : Nat) (others : Bool) : State := { run0 with hg := { run0.hg with
  link := ⟨(List.range 16).map fun i => (16 + i, if i = 2 then { retries := retries } else { retired := others, retries := 1 })⟩ } }
def link2 (t : State) : HLink := t.hg.link.get {} 18

theorem test_witness_links : ([
  done (.hedgerowLinkRetry 1 2 true) (links 5 false) fun t => decide ((link2 t).retries = 0),
  done (.hedgerowLinkRetry 1 2 false) (links 5 false) fun t => decide ((link2 t).retries = 6),
  done (.hedgerowLinkRetire 1 2) (links 16 false) fun t => (link2 t).retired && decide (t.pwr.mode = .run),
  done (.hedgerowLinkRetire 1 2) (links 16 true) fun t => decide (t.pwr.mode = .lockdown),
  idle (.hedgerowLinkRetry 1 2 true) (links 16 false),
  idle (.hedgerowLinkRetire 1 2) (links 15 false)] : List Bool).all id = true := by decide +kernel

/-- The gate of meadow 0 serves, with requests presented and held. -/
def gated (f : Gate → Gate := id) (masked : Bool := false) : State := mea net 0 fun x => { x with
  masked := masked, live := { x.live with pers := { x.live.pers with gateClk := 1 } }, gate := f { x.gate with isOpen := true, ready := true } }
def gi (type : BitVec 4) (addr : BitVec 56) : GateIssue := { type := type, addr := addr, len := 0, prio := 0, ord := false, tag := 5, data := [], be := [] }
def req0 : GateReq := { who := { kind := 4, index := 0 }, tag := 6, write := false, off := 0, data := [], be := [], world := true, peek := false, last := true }
def gateOf (t : State) : Gate := (t.mea 0).gate

theorem test_witness_gate : ([
  gated.gateReady 0 && done (.gateRequestIssue 0 (gi 1 9)) gated fun t => decide ((gateOf t).tags = [5]) && decide (answer t = some (hsOk, [1, 1])),
  done (.gateRequestIssue 0 (gi 0 9)) gated fun t => decide (answer t = some (hsRange, [])),
  idle (.gateRequestIssue 0 (gi 1 9)) (gated fun g => { g with tags := [5] }),
  done (.gateTargetRequest 0 .warden false false 0 [] [] 6) gated fun t => decide ((gateOf t).target.map GateReq.tag = [6]) && decide (t.hg.wait = [({ kind := 4, index := 0 }, 6)]),
  done (.gateTargetRequest 0 .warden false false 0 [] [] 6) (gated fun g => { g with ready := false }) fun t => decide ((gateOf t).held.map GateReq.tag = [6]),
  answered (.gateTargetRequest 0 .warden false false 0 [] [] 6) (gated fun g => { g with isOpen := false }) hsError,
  done (.gateTargetResponse 0 hsOk [8, 9]) { gated fun g => { g with target := [req0] } with hg := owing.hg } fun t =>
    decide (answer t = some (hsOk, [8, 9])) && decide ((gateOf t).target = []),
  -- ORD = 1 waits for an earlier write, and leaves with that write's response
  done (.gateRequestIssue 0 { gi 0 9 with ord := true }) (gated fun g => { g with tags := [4], wtags := [4] }) fun t =>
    decide ((gateOf t).outq.length = 1) && decide ((gateOf t).tags = [5, 4]) && decide (t.hg.resp = []),
  done (.hedgerowResponse (.gate 0) 4) { (gated fun g => { g with tags := [5, 4], wtags := [4], outq := [{ req := { gi 0 9 with ord := true }, world := false }] }) with
    hg := { net.hg with resp := [{ who := { kind := 3, index := 0 }, tag := 4, status := hsOk, data := [] }] } } fun t =>
    decide ((gateOf t).outq = []) && decide ((gateOf t).tags = [5]) && decide (answer t = some (hsRange, [])),
  done (.hedgerowResponse (.gate 0) 4) { (gated fun g => { g with tags := [4] }) with
    hg := { net.hg with resp := [{ who := { kind := 3, index := 0 }, tag := 4, status := hsOk, data := [9] }] } } fun t =>
    decide ((gateOf t).rsp = some (4, hsOk, [9])) && decide ((gateOf t).tags = []),
  -- a write that ends with TIMEOUT is not acknowledged; nothing is delivered while the gate clock stands
  done (.hedgerowResponse (.gate 0) 4) { (gated fun g => { g with tags := [4], wtags := [4] }) with
    hg := { net.hg with resp := [{ who := { kind := 3, index := 0 }, tag := 4, status := hsTimeout, data := [] }] } } fun t =>
    decide ((gateOf t).wtags = [4]) && decide ((gateOf t).tags = []),
  idle (.hedgerowResponse (.gate 0) 4) { mea (gated fun g => { g with tags := [4] }) 0 (fun x => { x with live := { x.live with pers := { x.live.pers with gateClk := 0 } } }) with
    hg := { net.hg with resp := [{ who := { kind := 3, index := 0 }, tag := 4, status := hsOk, data := [9] }] } },
  -- the answer to a request that has timed out is discarded
  done (.gateTargetResponse 0 hsOk [8, 9]) { gated fun g => { g with target := [{ req0 with late := true }] } with hg := owing.hg } fun t =>
    decide ((gateOf t).target = []) && decide (t.hg = owing.hg),
  -- a non-secure requester of a secure meadow; a DREAD of a fabric target
  answered (.gateTargetRequest 0 (.host 1) false false 0 [7, 7] [] 6) { mea gated 0 fun x => { x with world := true } with pwr := { net.pwr with owner := 0 } } hsDenied [0, 0],
  done (.hedgerowDread .warden 6 (BitVec.ofNat 56 (3 * 2 ^ 37)) 64) gated fun t => decide ((gateOf t).target.length = 2) && decide (t.hg.wait.length = 1) && decide (t.hg.resp = []),
  decide (gated.mayIssue (.gate 0) (some 6) = true) && decide ((gated fun g => { g with tags := [6] }).mayIssue (.gate 0) (some 6) = false),
  answered (.gateHeldRequestTimeout 0) { gated (fun g => { g with held := [req0] }) true with hg := owing.hg } hsTimeout] : List Bool).all id = true := by decide +kernel

/-! ## Flow contexts -/

/-- The 19 words of a parameter block from fields (byte offset of the word, low bit, value). -/
def prm (l : List (Nat × Nat × Nat)) : List (BitVec 64) :=
  (List.range 19).map fun i => BitVec.ofNat 64 (((l.filter fun f => f.1 = 8 * i).map fun f => f.2.2 * 2 ^ f.2.1).sum)
/-- PASS ingress on port 0: two buffers, payload type 96, address 1, UDP port 5, source UDP 6, descriptor queue 0. -/
def passIn : List (Nat × Nat × Nat) :=
  [(0, 8, 2), (0, 20, 96), (0, 60, 1), (8, 0, 6), (8, 16, 5), (8, 32, 1), (0x50, 27, 100), (0x68, 0, 9), (0x68, 20, 9)]
/-- VIDEO egress from buffer 9 on grid 0: 16 by 2 pixels of 4:2:2 8 bit, one line for each packet. -/
def videoOut : List (Nat × Nat × Nat) :=
  [(0, 63, 1), (0, 20, 96), (0x28, 16, 5), (0x38, 28, 8), (0x38, 37, 2), (0x38, 50, 16), (0x58, 0, 9), (0x58, 20, 32)]
def grid25 : Grid := { num := 25, den := 1, lines := 1125, switch1 := 7, switch2 := 0, lineOff := 0, phase := 0 }

/-- Context 0 as given, block 0 with eight enabled ports of 25 Gbit/s, buffer 9 and grid 0. -/
def flow (l : List (Nat × Nat × Nat)) (f : Ctx → Ctx := id) : State :=
  let s := onBuf run0
  { s with
    net := { s.net with ctx := ⟨[(0, f { st := .idle, prm := prm l })]⟩, port := ⟨[(0, { en := true, up := true })]⟩, blk := ⟨[(0, { mode := some 3 })]⟩ }
    tl := { s.tl with grids := ⟨[(0, some grid25)]⟩ } }
def act (x : Ctx) : Ctx := { x with st := .active, mPt := 100, taken := [103], lost := [(90, 2)] }
def ctx0 (t : State) : Ctx := t.ctx 0

/-- Buffer 9 with a parameter block at its start. -/
def blockIn (l : List (Nat × Nat × Nat)) (s : State) : State := each [0, 1, 2] (fun i s =>
  (s.writeLine wardenAsker 0 0 i (((prm l).flatMap fun w => leBytes 8 w.toNat).drop (64 * i) |>.take 64 |> fun d => d ++ List.replicate (64 - d.length) 0)
    (List.replicate 64 true)).s) s
def creating (taken : Nat) : State :=
  let s := blockIn passIn (flow [])
  { s with net := { s.net with ctx := ⟨(List.range taken).map fun i => (i, { st := .idle, prm := prm [(0x48, 27, 64)] })⟩ } }

theorem test_witness_flow : ([
  gives (.flowQuery 0) (on (flow passIn) 0x0507 [0]) stOk fun t => decide (((t.mb 0).rsp.get {} 0).res.length = 6),
  gives (.flowEnable 0) (on (flow passIn) 0x0503 [0]) stOk fun t => decide ((ctx0 t).st = .restarting),
  gives (.flowEnable 0) (on (flow videoOut) 0x0503 [0]) stOk fun t => decide ((ctx0 t).st = .idle) && decide ((ctx0 t).egFrame = some 1),
  gives (.flowEnable 0) (on (flow passIn act) 0x0503 [0]) stIgnored,
  gives (.flowDisable 0) (on (flow passIn) 0x0504 [0]) stIgnored, gives (.flowRestart 0) (on (flow passIn) 0x0505 [0]) stIgnored,
  gives (.flowDisable 0) (on (flow videoOut act) 0x0504 [0]) stOk fun t => decide ((ctx0 t).st = .idle),
  gives (.flowDisable 0) (on (flow passIn act) 0x0504 [0]) stOk fun t => decide ((ctx0 t).st = .idle),
  gives (.flowRestart 0) (on (flow passIn act) 0x0505 [0]) stOk fun t => decide ((ctx0 t).st = .restarting) && decide ((ctx0 t).taken = []),
  gives (.flowRestart 0) (on (flow videoOut fun x => { x with st := .active, egFrame := some 4, egPkt := 1 }) 0x0505 [0]) stOk fun t =>
    decide ((ctx0 t).egFrame = some 5),
  gives (.flowSourceSwitch 0) (on (flow videoOut) 0x0506 [0, 7]) stOk fun t => decide ((ctx0 t).srcNext = some 7),
  gives (.flowSourceSwitch 0) (on (flow passIn) 0x0506 [0, 7]) stBadArg,
  -- a buffer of the secure world asked for by a non-secure host
  gives (.flowSourceSwitch 0) ((let s := flow videoOut; { s with pool := { s.pool with buf := ⟨[(7, some { buf0 with world := true })]⟩ } }).updMb 0 fun m =>
    { m with running := some { cmd 0x0506 [0, 7] with world := false } }) stDenied,
  gives (.flowDelete 0) (on (flow passIn act) 0x0502 [0]) stOk fun t => decide ((ctx0 t).st = .free),
  gives (.flowCreate 0) (on (creating 3) 0x0501 [0, 9]) stOk fun t => decide ((t.ctx 3).st = .idle) && decide ((t.ctx 3).descQ = 0),
  gives (.flowCreate 0) (on (creating 33) 0x0501 [0, 9]) stNoResource,
  done (.cueFlowSourceSwitch 5) (due (flow videoOut) 0x0201 0 7) fun t => decide ((ctx0 t).srcNext = some 7) && (t.cue 5).launched,
  done (.cueFlowEnable 5) (due (flow passIn) 0x0202 0 0) fun t => decide ((ctx0 t).st = .restarting),
  done (.cueFlowDisable 5) (due (flow videoOut act) 0x0203 0 0) fun t => decide ((ctx0 t).st = .idle)] : List Bool).all id = true := by decide +kernel

/-- A PASS packet for context 0. -/
def pkt (seq : BitVec 16) : Packet := {
  ipUdp := true, vlan := 0, dstIp := 1, dstUdp := 5, srcIp := 9, srcUdp := 6, version := 2, pt := 96, seq := seq, ext := 0, ts := 77
  marker := false, ssrc := 0, body := .raw [1, 2, 3] }
theorem test_witness_ingress : ([
  idle (.ingressPacket 0 1 (pkt 101)) (flow passIn act),
  done (.ingressPacket 0 0 (pkt 101)) { flow passIn act with pwr := { run0.pwr with mode := .hold } } fun t => decide ((t.port 0).refused = 1),
  done (.ingressPacket 0 0 { pkt 101 with ipUdp := false }) (flow passIn act) fun t => decide ((t.port 0).unmatched = 1),
  done (.ingressPacket 0 0 { pkt 101 with dstUdp := 8 }) (flow passIn act) fun t => decide ((t.port 0).unmatched = 1),
  done (.ingressPacket 0 0 { pkt 101 with srcUdp := 8 }) (flow passIn act) fun t => decide ((ctx0 t).invalid = 1),
  done (.ingressPacket 0 0 { pkt 101 with version := 1 }) (flow passIn act) fun t => decide ((ctx0 t).invalid = 1),
  decide ((flow passIn act).matchCtx 0 0 (pkt 101) = some (0, false)) &&
    done (.ingressPacket 0 0 (pkt 101)) (flow passIn act) fun t => decide ((ctx0 t).accepted = 1),
  done (.ingressPacket 0 0 (pkt 103)) (flow passIn act) fun t => decide ((ctx0 t).duplicate = 1),
  done (.ingressPacket 0 0 (pkt 99)) (flow passIn act) fun t => decide ((ctx0 t).duplicate = 1),
  done (.ingressPacket 0 0 (pkt 91)) (flow passIn act) fun t => decide ((ctx0 t).late = 1),
  -- a VIDEO context counts 32-bit numbers, so that a number can lie 2^24 away
  done (.ingressPacket 0 0 { pkt 100 with ext := 0x100, body := .video [(0, 0, 0, List.replicate 32 5)] })
    (flow (passIn.filter (·.2.1 ≠ 60) ++ [(0x38, 28, 8), (0x38, 37, 2), (0x38, 50, 16)]) act) fun t =>
      decide ((ctx0 t).st = .restarting) && decide ((ctx0 t).invalid = 1),
  done (.mergeWaitExpiry 0 102) (flow passIn act) fun t => decide ((ctx0 t).lostCount = 2) && decide ((ctx0 t).mPt = 103),
  done (.pathLossTimeout 0 false) (flow passIn fun x => { act x with upA := true }) fun t => !(ctx0 t).upA && decide ((ctx0 t).downsA = 1),
  done (.pathLossTimeout 0 true) (flow passIn fun x => { act x with upB := true }) fun t => !(ctx0 t).upB && decide ((ctx0 t).downsB = 1),
  done (.descriptorPush 0) (let s := flow passIn fun x => { act x with wait := [0x99] }
    let q := queued 0 [] []
    { s with fab := q.fab, que := { q.que with q := q.que.q.upd {} 0 fun q => { q with slots := ⟨[(1, { src := srcCode 1 0, grant := 4, held := 4 })]⟩ } } })
    fun t => decide ((ctx0 t).wait = []) && decide ((t.queue 0).fill.map QWord.data = [0x99])] : List Bool).all id = true := by decide +kernel

def formed0 : Formed := { due := 5 * nsU, ts := 3, marker := true, whole := true, body := .raw [1] }
def sending (now : Nat) : State := let s := flow videoOut fun x => { x with st := .active, formed := [formed0], seq := 8 }
  { s with tl := { s.tl with now := now } }
/-- The packet with both paths: path B leaves on port 1. -/
def twoPaths (b : EthPort) : State :=
  let s := flow (videoOut ++ [(0, 59, 1), (0, 51, 1)]) fun x => { x with st := .active, formed := [formed0], seq := 8 }
  { s with
    tl := { s.tl with now := 5 * nsU }
    net := { s.net with port := ⟨[(0, { en := true, up := true }), (1, b)]⟩ } }
theorem test_witness_egress : ([
  -- the first packet of frame 0, whose start is time 0
  done (.egressPacketForm 0) (flow videoOut fun x => { x with st := .active, egFrame := some 0, srcNext := some 9 }) fun t =>
    decide ((ctx0 t).formed.length = 1) && decide ((ctx0 t).src = 9) && decide ((ctx0 t).egPkt = 1) && decide ((ctx0 t).srcNext = none),
  -- its second and last packet, due half of 2/1125 of 40 ms after the first
  done (.egressPacketForm 0) { flow videoOut fun x => { x with st := .active, egFrame := some 0, egPkt := 1, src := 9 } with
      tl := { (flow []).tl with now := 40000 * nsU } } fun t =>
    (ctx0 t).formed.any fun p => decide (p.due = ((40000000 * nsU + 1124) / 1125)) && p.whole && decide (p.body = .video [(1, 0, 0, List.replicate 32 0)]),
  done (.egressPacketSend 0) (sending (5 * nsU)) fun t => (match t.out with
      | [.packet 0 0 d q] => decide (d = 5 * nsU ∧ { q with fcs := 0 } = { (ctx0 (sending 0)).sent 0 false formed0 with fcs := 0 }) && decide (q.pad = 5)
      | _ => false) &&
    decide ((ctx0 t).seq = 9) && decide ((ctx0 t).done = 1),
  -- the same packet on both paths, path B on port 1
  done (.egressPacketSend 0) (twoPaths { en := true, up := true }) fun t => decide (t.out.length = 2) && decide ((ctx0 t).accepted = 1),
  -- no port up: its number is used, nothing leaves or counts
  done (.egressPacketSend 0) (let s := sending (5 * nsU); { s with net := { s.net with port := ⟨[]⟩ } }) fun t =>
    decide (t.out = []) && decide ((ctx0 t).seq = 9) && decide ((ctx0 t).accepted = 0),
  idle (.egressPacketSend 0) (sending (5 * nsU - 1))] : List Bool).all id = true := by decide +kernel

/-! ## Lanes, ports, SDI -/

/-- Lane references ready, block 0 set to eight ports of 25 Gbit/s on lanes with signal, start-up calibration over. -/
def laned (f : Lane → Lane := id) (en : Bool := false) (up : Bool := false) (mode : Option Nat := some 3) : State :=
  { run0 with
    clk := { run0.clk with ready := ⟨[(1, true), (3, true)] ++ (List.range 12).map fun i => (0x10 + i, true)⟩ }
    pwr := { run0.pwr with laneCal := true }
    net := { run0.net with
      blk := ⟨[(0, { mode := mode })]⟩, port := ⟨[(2, { en := en, up := up, lock := up })]⟩
      lane := ⟨(List.range 8).map fun i => (24 + i, f { st := .ready, signal := true })⟩ } }
def laneBg (code : BitVec 16) : Bg := { host := 0, seq := 0, code := code, tag := 7 }
def busyLane (test q : Bool) : State := laned fun x => { x with jobs := [(laneBg 0x0A03, test, q)] }
/-- SDI port 3 as given, with an SDI context when `ctx`. -/
def sdi3 (p : SdiPort) (ctx : Bool := false) : State := { laned with
  net := { (laned).net with sdi := ⟨[(3, p)]⟩, ctx := if ctx then ⟨[(0, { st := .idle, prm := prm [(0, 60, 5), (0, 54, 3)] })]⟩ else {} }
  tl := { run0.tl with grids := ⟨[(0, some grid25)]⟩ } }

theorem test_witness_laneCommands : ([
  gives (.laneConfigure 0) (on (laned id false false none) 0x050B [24 + 0x80, 5]) stOk fun t => (t.lane 24).txPol && decide ((t.lane 24).taps = 5),
  gives (.laneConfigure 0) (on (laned) 0x050B [3 + 0x80, 5]) stOk fun t => (t.lane 3).txPol && decide ((t.lane 3).taps = ((laned).lane 3).taps),
  gives (.laneCalibrate 0) (on run0 0x0A03 [24]) stNotReady,
  gives (.laneCalibrate 0) (on (laned id true) 0x0A03 [26]) stBusy,
  done (.laneCalibrate 0) (on (laned) 0x0A03 [24]) fun t => decide ((t.lane 24).jobs = [(laneBg 0x0A03, false, false)]),
  gives (.laneSelftest 0) (on (laned) 0x0A04 [24 + 4 * 256]) stQueued fun t => decide ((t.lane 24).jobs = [(laneBg 0x0A04, true, true)]),
  gives (.portBlockSet 0) (on (laned) 0x0508 [0x20, 0xAABBCCDDEE]) stOk fun t => decide (t.blkMode 0 = some 2) && (t.lane 24).pam4,
  gives (.portEnable 0) (on (laned id true) 0x0509 [0x120]) stIgnored,
  gives (.portEnable 0) (on (laned) 0x0509 [0x120]) stOk fun t => (t.port 2).en,
  gives (.portDisable 0) (on (laned id true true) 0x0509 [0x020]) stOk fun t => !(t.port 2).en && decide ((t.port 2).downs = 1),
  gives (.sdiPortSet 0) (on (laned) 0x050A [0x343]) stOk fun t => (t.sdi 3).auto && decide ((t.sdi 3).std = 3),
  gives (.sdiPortSet 0) (on (sdi3 {} true) 0x050A [0x343]) stBusy] : List Bool).all id = true := by decide +kernel

def frame0 : Frame := { fcsOk := true, length := 64, pause := false, dst := BitVec.allOnes 48, forWarden := false, query := false, corr := 3, uncorr := 1 }
def sdiLine0 : SdiLine := {
  row := none, field := 0, last := false, st352 := none, fmt := 0, crcOk := true, trsOk := false, picture := [], anc := [], badAnc := 2, ppm := 5 }
/-- A 1920 by 1080 progressive frame of 4:2:2 10 bit (block word 0x38). -/
def fmt1080 : BitVec 64 := BitVec.ofNat 64 (pack [(1920, 50), (1080, 37), (10, 28)])

theorem test_witness_laneHappenings : ([
  done (.laneCalibrationDone 24 true 9) (busyLane false true) fun t => decide ((t.lane 24).jobs = []) && decide ((t.lane 24).eye = 9),
  gives (.laneCalibrationDone 24 false 9) (on (busyLane false false) 0x0A03 [24]) stFailed fun t => decide ((t.lane 24).st = .failed),
  done (.laneSelftestDone 24 0 0 9) (busyLane true true) fun t => decide ((t.lane 24).jobs = []),
  done (.startupLaneCalDone [25]) (let s := laned; { s with pwr := { s.pwr with laneCal := false } }) fun t =>
    decide ((t.lane 24).st = .ready) && decide ((t.lane 25).st = .failed) && t.pwr.laneCal,
  done (.laneLossOfSignal 24) (laned) fun t => !(t.lane 24).signal && decide ((t.lane 24).los = 1),
  idle (.laneLossOfSignal 24) (laned fun x => { x with signal := false }),
  done (.laneSignalReturn 24 true) (laned fun x => { x with signal := false }) fun t => (t.lane 24).signal && (t.lane 24).polInv,
  done (.ethLinkDown 0 2 true) (laned id true true) fun t => !(t.port 2).up && (t.port 2).lock && decide ((t.port 2).downs = 1),
  decide ((laned id true).blkMode 0 = some 3) && ((laned id true).port 2).en && !((laned id true).port 2).up &&
    decide (modeLanes 3 2 = [2]) && ((laned id true).lane (ethLane 0 2)).signal,
  done (.ethernetFrameReceive 0 2 { frame0 with fcsOk := false }) (laned id true true) fun t => decide ((t.port 2).fcs = 1),
  done (.ethernetFrameReceive 0 2 { frame0 with length := 63 }) (laned id true true) fun t => decide ((t.port 2).fecCorr = 3) && decide ((t.port 2).seen = []),
  (laned id true true).macTakes 2 0xFFFFFFFFFFFF && (laned id true true).macTakes 2 2 && !(laned id true true).macTakes 2 3,
  (laned id true true).macTakes 2 0x01005E000181,
  -- a frame for the engine is counted there; one for the warden here; a membership query
  done (.ethernetFrameReceive 0 2 frame0) (laned id true true) fun t => decide ((t.port 2).seen = []) && decide (t.out = []),
  done (.ethernetFrameReceive 0 2 { frame0 with forWarden := true }) (laned id true true) fun t => decide ((t.port 2).seen = [(0, 84)]) && decide (t.out = []),
  done (.sdiInputLock 3 2 true) (sdi3 { auto := true }) fun t => (t.sdi 3).carrier && decide ((t.sdi 3).detStd = 2) && (t.lane 19).signal,
  -- another standard: CARRIER falls first; level B has none
  done (.sdiInputLock 3 2 true) (sdi3 { auto := true, aligned := true, carrier := true, detStd := 3 }) fun t => !(t.sdi 3).carrier && !(t.sdi 3).aligned,
  done (.sdiInputLock 3 4 true) (sdi3 { auto := true }) fun t => !(t.sdi 3).carrier && (t.sdi 3).aligned,
  done (.sdiInputLine 3 sdiLine0) (sdi3 { carrier := true, aligned := true }) fun t => decide ((t.sdi 3).ppm = 5) && decide ((t.sdi 3).anc = 2) && decide ((t.sdi 3).trs = 1),
  -- 1,125 lines in 40 ms: line 5 ends 177,778 ns into the frame
  done (.sdiOutputLine 3) (let s := sdi3 { out := true, carrier := true, detStd := 1, fmt := fmt1080, cur := some 0, line := 5 }
    { s with tl := { s.tl with now := 177778 * nsU } }) fun t => decide ((t.sdi 3).line = 6) && decide (t.out =
      [.sdi 3 { line := 6, eav := [0x3FF, 0, 0, 0x2D8], sav := [0x3FF, 0, 0, 0x2AC], picture := none, anc := [], payloadId := none, crc := none }])] : List Bool).all id = true := by decide +kernel

/-- IdleStepIsTimelineEdge and TimelineCommandsServed: the ring is read 2 us before the line; a step moves running outputs. -/
def ahead0 (ahead : Option (List AncPkt)) : State := let s := sdi3 { out := true, fmt := fmt1080, cur := some 0, line := 5, ahead := ahead }
  { s with tl := { s.tl with now := 175778 * nsU } }
theorem test_witness_ahead : ([
  decide ((ahead0 none).dueAhead = some 3) && decide ((ahead0 none).dueRow = none) && decide ((ahead0 none).dueInHold = none),
  stepped (ahead0 none) fun t => decide ((t.sdi 3).ahead = some []) && decide (t.tl.now = 175778 * nsU),
  decide ((ahead0 (some [])).dueAhead = none),
  gives (.timelineStep 0) (on (ahead0 (some [])) 0x0403 [7]) stOk fun t => decide (t.sdi 3 = ((ahead0 (some [])).sdi 3).stepped (7 * nsU))] : List Bool).all id = true := by decide +kernel

/-- More than 100 million frames a second have arrived on port 2, whatever the span over which rates are taken. -/
noncomputable def flooded (s : State) : State :=
  { s with net := { s.net with port := ⟨[(2, { en := true, up := true, lock := true, seen := List.replicate (100000000 * Config.rateSpan + 1) (s.tl.up, 0) })]⟩ } }
theorem test_witness_overRate (s : State) : (flooded s).overRate 0 2 = true := by
  have h : (flooded s).lately 2 = List.replicate (100000000 * Config.rateSpan + 1) (s.tl.up, 0) := by
    show List.filter _ (List.replicate _ _) = _
    rw [List.filter_replicate]; simp [flooded]
  have hn : 100000000 * Config.rateSpan + 1 ≤ ((List.range 8).map fun i => ((flooded s).lately (8 * 0 + i)).length).sum := by
    simp only [List.range, List.range.loop, List.map, List.sum_cons]
    have := congrArg List.length h
    simp at this ⊢; omega
  have hs : secU ≠ 0 := by decide
  unfold State.overRate
  simp only [Bool.or_eq_true, Bool.and_eq_true, decide_eq_true_eq]
  left
  refine ⟨by omega, ?_⟩
  calc 100000000 * Config.rateSpan ≤ _ := Nat.le_trans (by omega) hn
    _ ≤ _ := Nat.le_mul_of_pos_right _ (by decide)
/-- The flooded port takes its clauses' other hypotheses too: it is enabled and up, in RUN. -/
theorem test_witness_refused : ((flooded (laned)).port 2).en = true ∧ ((flooded (laned)).port 2).up = true ∧
    (flooded (laned)).alive = true ∧ (flooded (laned)).netUp = true ∧ (flooded (laned)).overRate 0 2 = true :=
  ⟨rfl, rfl, by decide +kernel, by decide +kernel, test_witness_overRate _⟩

/-! ## Resets, LOCKDOWN, rails, start-up, modes -/

def pwr (s : State) (f : Power → Power) : State := { s with pwr := f s.pwr }
def inBoot (t : State) (cause : BitVec 8) : Bool := decide (t.pwr.mode = .boot) && decide (t.pwr.cause = cause) && t.pwr.ghold
/-- The timeline at 5, a strap that the pins no longer show, a failed unlocking. -/
def worn : State := { pwr run0 (fun p => { p with pins := { p.pins with cfgSrc := 2 } }) with
  tl := { run0.tl with now := 5 }, sec := { run0.sec with fails := 3 } }

theorem test_witness_resets : ([
  done .cfgProgNLow worn fun t => inBoot t 2 && decide (t.tl.now = 5) && decide (t.sec.fails = 3) && decide (t.pwr.straps.cfgSrc = 1),
  idle .cfgProgNLow (pwr worn fun p => { p with mode := .lockdown }),
  done .delayedDeviceReset { worn with wrd := { worn.wrd with resetDue := true } } (inBoot · 3), idle .delayedDeviceReset worn,
  done .wardenWatchdogExpiry worn (inBoot · 5), idle .wardenWatchdogExpiry (pwr worn fun p => { p with mode := .service }),
  idle .wardenWatchdogExpiry { worn with wrd := { worn.wrd with halted := true } },
  done (.railFail .core) worn fun t => inBoot t 4 && decide (RailId.core ∈ t.pwr.down),
  done .powerOnReset worn fun t => inBoot t 1 && decide (t.tl.now = 0) && decide (t.sec.fails = 0) && decide (t.pwr.straps.cfgSrc = 2),
  done .debugPowerOnReset { worn with dbg := { worn.dbg with refused := 9 } } fun t => decide (t.dbg = {}),
  -- a reset that comes during HOLD entry waits; the first of two is the cause
  done .cfgProgNLow (pwr worn fun p => { p with entering := some { host := 0, seq := 0, code := 0x0901, tag := 7 } }) fun t =>
    decide (t.pwr.mode = .run) && decide (t.pwr.lateReset = some 2),
  done .wardenWatchdogExpiry (pwr worn fun p => { p with entering := some { host := 0, seq := 0, code := 0x0901, tag := 7 }, lateReset := some 2 }) fun t =>
    decide (t.pwr.lateReset = some 2),
  -- a LOCKDOWN entry that waits for VCC_CORE ends as power loss does
  done (.railFail .hbm) (pwr worn fun p => { p with mode := .lockdown, lockPend := true }) (inBoot · 1),
  done .debugPowerOnReset (pwr (inMode .load) fun p => { p with loadWait := true, straps := { p.straps with cfgSrc := 0 } }) fun t =>
    !t.pwr.loadWait && decide (t.ldr.job = some { src := .flash })] : List Bool).all id = true := by decide +kernel

/-- A sealed device with its four tamper sources armed, a key, and a byte in a scratchpad. -/
def sealed : State := { run0 with
  sec := { run0.sec with life := .sealed, tamperEn := 0xF, keyRam := some 5 }
  mem := { run0.mem with pad := ⟨[(7, 1)], 0⟩ } }
def locked (t : State) (cause : BitVec 8) : Bool :=
  decide (t.pwr.mode = .lockdown) && decide (t.pwr.lockCause = cause) && decide (t.sec.keyRam = none)
def sealedHold : State := pwr sealed fun p => { p with mode := .hold }

theorem test_witness_lockdown : ([
  done .tamperNAlarm sealed fun t => locked t 1 && decide (t.mem.pad.cells = []) && t.mem.padOff && t.wrd.alertForced,
  done (.supplyGlitchAlarm true) sealed (locked · 1), done (.dieOvertempAlarm 2) sealed (locked · 1), done .fastOscStop sealed (locked · 4),
  done .tamperNAlarm sealedHold fun t => locked t 1 && t.pwr.lockPend &&
    done .lockdownCoreSteps t fun u => decide (u.pwr.mode = .lockdown) && !u.pwr.lockPend && decide (u.mem.pad.cells = []),
  idle .tamperNAlarm run0, idle (.supplyGlitchAlarm true) { sealed with sec := { sealed.sec with tamperEn := 0 } },
  idle .lockdownCoreSteps sealedHold, idle .lockdownCoreSteps (pwr sealed fun p => { p with lockPend := true, coreLow := true }),
  idle (.dieOvertempAlarm 2) run0, idle .fastOscStop (inMode .lockdown)] : List Bool).all id = true := by decide +kernel

def boot0 : State := { pwr run0 (fun p => { p with mode := .boot, edges := [0, 1, 2] }) with clk := { run0.clk with locked := false } }
theorem test_witness_startUp : ([
  done (.railGood .hbm) (pwr run0 fun p => { p with down := [.hbm] }) fun t => decide (t.pwr.down = []),
  done (.railGood .core) (pwr run0 fun p => { p with down := [.core], coreLow := true }) fun t => decide (t.pwr.down = []) && !t.pwr.coreLow,
  done (.railGood .vbat) run0 fun t => t.sec.vbat,
  idle (.railFail .core) (pwr run0 fun p => { p with down := [.core] }),
  done (.railFail .vbat) sealed fun t => decide (t.sec.keyRam = none), done (.railFail (.vccio 3)) run0 fun t => decide (t.pwr.down = [.vccio 3]),
  done .vbatLow sealed fun t => decide (t.sec.keyRam = none),
  done (.scratchpadWipeDone false) State.reset fun t => !t.mem.wiping && decide (t.wrd.boot = none) && decide (t.pwr.mode = .boot),
  done (.scratchpadWipeDone true) State.reset (locked · 2),
  done (.scratchpadWipeDone false) { State.reset with sec := { State.reset.sec with badWord := true } } (locked · 4),
  done .rootLoopLock boot0 fun t => t.clk.locked && decide (t.clk.ref = 3),
  done (.dieEdgeTrained 1 true) { pwr boot0 (fun p => { p with edges := [0] }) with clk := run0.clk } fun t => decide (t.pwr.edges = [0, 1]),
  done (.hbmTrainingDone [3] []) boot0 fun t => decide (t.pwr.mode = .load) && decide ((t.pch 3).st = .failed) && decide ((t.pch 4).st = .active) && decide (t.ldr.job = none),
  done (.hbmTrainingDone [] []) { boot0 with dbg := { run0.dbg with ir := .extest } } fun t => t.pwr.loadWait,
  done (.hbmTrainingDone [] []) (pwr boot0 fun p => { p with straps := { p.straps with cfgSrc := 0 } }) fun t => decide (t.ldr.job = some { src := .flash }),
  done .fabricResetRelease run0 fun t => !(t.mea 7).frst] : List Bool).all id = true := by decide +kernel

def holding (f : Power → Power := id) : State := pwr run0 fun p => f { p with mode := .hold }
def modeBg : Bg := { host := 0, seq := 0, code := 0x0901, tag := 7 }
theorem test_witness_hold : ([
  gives (.modeSetHold 0) (on run0 0x0901 [3, 0, 2500000]) stQueued fun t => decide (t.pwr.entering = some modeBg) && decide (t.pwr.wakes = [1000000 * nsU]),
  gives (.modeSetHold 0) (on run0 0x0901 [3, 0, 2499999]) stLate, gives (.modeSetHold 0) (on (holding) 0x0901 [3]) stIgnored,
  gives (.modeSetRun 0) (on run0 0x0901 [2]) stIgnored,
  gives (.modeSetRun 0) (on (holding) 0x0901 [2]) stQueued fun t => t.pwr.exiting && decide (t.pwr.wakeCmds = [modeBg]),
  decide (run0.net.ctx.ents = []),
  done .holdEntryComplete (pwr run0 fun p => { p with entering := some modeBg }) fun t => decide (t.pwr.mode = .hold) && t.pwr.retReq && decide ((t.mea 9).col = .retention),
  done .holdWakeTimer (holding fun p => { p with wakes := [0, 5] }) fun t => t.pwr.exiting && decide (t.pwr.wakes = [5]),
  done .holdWakeNLow (holding) fun t => t.pwr.exiting, idle .holdWakeNLow run0,
  done .holdWakeNLow (pwr run0 fun p => { p with entering := some modeBg }) fun t => t.pwr.wakeN,
  done .holdEntryComplete (pwr run0 fun p => { p with entering := some modeBg, wakeN := true }) fun t => decide (t.pwr.mode = .hold) && t.pwr.exiting,
  -- the reset that waited
  done .holdEntryComplete (pwr run0 fun p => { p with entering := some modeBg, lateReset := some 5 }) fun t => inBoot t 5 && decide (t.pwr.lateReset = none),
  done .holdExitResume (mea (holding fun p => { p with exiting := true }) 9 fun x => { x with col := .retention, colHold := some .on }) fun t =>
    decide (t.pwr.mode = .run) && decide ((t.mea 9).col = .on),
  done .holdExitRailTimeout (holding fun p => { p with exiting := true, coreLow := true, wakeCmds := [modeBg] }) fun t =>
    decide (t.pwr.mode = .hold) && !t.pwr.exiting && decide (t.pwr.wakeCmds = []),
  done (.holdCueDisarm 5) { due (holding) 0x0401 0 0 with pwr := (holding).pwr } fun t => !(t.cue 5).armed] : List Bool).all id = true := by decide +kernel

/-! ## Loading, recoat, scrubbing -/

/-- Meadow 3 changed. -/
def m3 (f : Meadow → Meadow) : State := mea run0 3 f
def loadBg (code : BitVec 16) : Bg := { host := 0, seq := 0, code := code, tag := 7 }
def busyLoad (s : State) : State := { s with ldr := { s.ldr with job := some { src := .flash } } }
/-- The first line of buffer 9 is the header of a partial image that names meadow 3. -/
def partialIn (s : State) : State := each (List.range 8) (fun i s =>
  (s.writeLine wardenAsker 0 0 i ((List.replicate 64 (0 : Byte)).set 40 (if i = 0 then 8 else 0)) (List.replicate 64 true)).s) (onBuf s)
/-- The RECOAT_LOAD of the tests, as a load. -/
def recoatJob : Load := { src := .buffer, handle := 9, off := 0, len := 600, cmd := some (loadBg 0x0302), world := true, recoat := true }

theorem test_witness_config : ([
  gives (.configLoad 0) (on (inMode .load) 0x0301 [0]) stQueued fun t => decide (t.ldr.job.map (·.src) = some .flash),
  decide (run0.ldr.job = none) && !run0.testing && !run0.pwr.loadWait && decide (run0.wrd.bg = []) && run0.running,
  gives (.configLoad 0) (on (inMode .load) 0x0301 [1, 9, 600]) stQueued fun t => decide (t.ldr.job.map (·.handle) = some 9),
  gives (.configLoad 0) (on (busyLoad run0) 0x0301 [0]) stBusy,
  decide ((partialIn run0).imageTargets recoatJob = [3]),
  gives (.recoatLoad 0) (on (partialIn run0) 0x0302 [0, 9, 600]) stQueued fun t => decide ((t.mea 3).ucState = .loading) && decide (t.ldr.job = some { recoatJob with targets := [3] }),
  gives (.recoatLoad 0) (on (busyLoad (partialIn run0)) 0x0302 [0, 9, 600]) stQueued fun t => decide (t.ldr.queue = [{ recoatJob with targets := [3] }]),
  gives (.recoatDiscard 0) (on (m3 fun x => { x with ucState := .verified }) 0x0303 [3]) stOk fun t => decide ((t.mea 3).ucState = .empty),
  gives (.recoatDiscard 0) (on run0 0x0303 [3]) stIgnored, gives (.meadowQuery 0) (on run0 0x0304 [3]) stOk,
  gives (.configReadback 0) (on (onBuf run0) 0x0305 [3, 2 * 2 ^ 16 + 5, 9]) stQueued fun t => decide (t.ldr.readback.map (·.first) = [5]),
  gives (.scrubControl 0) (on run0 0x0A01 [0x10003]) stOk fun t => (t.mea 3).scrubPause,
  gives (.scrubControl 0) (on (m3 fun x => { x with scrubPause := true }) 0x0A01 [0x10003]) stIgnored,
  gives (.scrubControlResume 0) (on (m3 fun x => { x with scrubPause := true }) 0x0A01 [3]) stOk fun t => !(t.mea 3).scrubPause,
  gives (.scrubControlResume 0) (on run0 0x0A01 [3]) stIgnored, gives (.scrubQuery 0) (on run0 0x0A02 [1]) stOk] : List Bool).all id = true := by decide +kernel

/-- A load in the boot mode LOAD. -/
def loading (j : Load) : State := { inMode .load with ldr := { run0.ldr with job := some j } }
/-- A flash whose pointer table names an image at 64 KiB and a fallback at 128 KiB. -/
def flashed (magic : Nat) : State := let s := loading { src := .flash }
  let l := leBytes 8 magic ++ leBytes 8 65536 ++ leBytes 8 131072 ++ leBytes 8 0
  -- byte 2a of the stream lies in flash 0, byte 2a + 1 in flash 1
  let half := fun i => (l.zipIdx.filter fun e => e.2 % 2 = i).map (·.1)
  { s with ldr := { s.ldr with
    flash0 := { s.ldr.flash0 with mem := s.ldr.flash0.mem.writeN 0 (half 0) }, flash1 := { s.ldr.flash1 with mem := s.ldr.flash1.mem.writeN 0 (half 1) } } }
def header0 : Header := { parseHeader [] with blocks := 2, digest := [], aad := [], build := 0 }
def failed (t : State) (cause : Nat) : Bool := decide (t.ldr.job.map (·.failed) = some (some cause))

theorem test_witness_loads : ([
  done .bootPointerTable (flashed 0x42505431) fun t => decide (t.ldr.job.map (·.off) = some 65536) && decide (t.ldr.job.map (·.fbOff) = some 131072) && t.ldr.flash1.switched,
  done .bootPointerTable (flashed 0x42505432) (failed · 1),
  done .bootPointerTable (let s := flashed 0x42505431; { s with ldr := { s.ldr with flash1 := { s.ldr.flash1 with sfdp := false } } }) (failed · 0x11),
  -- erased flash: no header
  done .imageHeader (loading { src := .flash, ptr := true, off := 65536 }) (failed · 1),
  done .chainTimeout (loading { src := .chain }) (failed · 0x10), done .chainStallTimeout (loading { src := .chain, hdr := some header0 }) (failed · 8),
  done .chainStallTimeout (loading { src := .chain }) (failed · 8),
  done .imageHeader (let s := loading { src := .chain }; { s with ldr := { s.ldr with pos := some 8 } }) (failed · 0x0F),
  done .fullLoadFailed (loading { src := .flash, failed := some 1, fbOff := 131072 }) fun t => decide (t.ldr.job.map (·.off) = some 131072),
  done .fullLoadFailed (loading { src := .flash, failed := some 1, fbOff := 131072, fallback := true }) fun t => t.pwr.cfgErr && decide (t.pwr.loadCause = 1),
  (let s := loading { src := .flash, ended := true }; decide (s.ldr.job.map (·.ended) = some true) && s.alive),
  done .recoatLoadDone { loading { recoatJob with targets := [3], ended := true } with pwr := run0.pwr } fun t => decide ((t.mea 3).ucState = .verified),
  done (.chainLinkTrained 6) (pwr run0 fun p => { p with straps := { p.straps with cfgSrc := 2 } }) fun t => decide (t.ldr.pos = some 7) && decide (t.out = [.chainPos 7]),
  done (.chainLinkTrained 6) { run0 with ldr := { run0.ldr with forward := true, fwdAt := some 9 } } fun t => decide (t.ldr.pos = some 0) && decide (t.out = [.chainPos 0, .chainForward (some 9)]),
  -- upstream position 7: this device would be the eighth
  done (.chainLinkTrained 7) (pwr (loading { src := .chain }) fun p => { p with straps := { p.straps with cfgSrc := 2 } }) (failed · 0x0F)] : List Bool).all id = true := by decide +kernel

/-- LoadsRun: a header can be read, and a block: from the flash, as from a buffer. -/
def blockJob : Load := { src := .flash, ptr := true, off := 65536, hdr := some header0 }
theorem loadRead_flash (s : State) (j : Load) (off n : Nat) (h : j.src = .flash) (hn : j.off + off + n ≤ 2 ^ 33) :
    s.loadRead j off n = (s, .ok (s.ldr.stream (j.off + off) n)) := by
  simp only [State.loadRead, h, if_neg (Nat.not_lt.mpr hn)]
theorem test_witness_blocks : (loading blockJob).loading = some blockJob ∧ (loading blockJob).loadLines blockJob = true ∧
    (∃ u l, (loading blockJob).loadRead blockJob 0 512 = (u, .ok l)) ∧
      ∃ u raw, (loading blockJob).loadRead blockJob (512 + 65536 * blockJob.blk) 65536 = (u, .ok raw) :=
  ⟨by decide +kernel, by decide +kernel, ⟨_, _, loadRead_flash _ _ _ _ rfl (by decide)⟩, ⟨_, _, loadRead_flash _ _ _ _ rfl (by decide)⟩⟩

/-- A record whose header word is `w`, with `n` bytes of 0xA5 behind it, in block `blk` of two. -/
def record (w n : Nat) (blk : Nat := 1) (f : Load → Load := id) : State :=
  loading (f { src := .flash, ptr := true, hdr := some header0, blk := blk, inBody := true, body := leBytes 8 w ++ List.replicate n 0xA5 })
def rec' (type n : Nat) (fa : Nat := 0x3005) : Nat := pack [(type, 60), (fa, 32), (n, 0)]

/-- A record of one frame is written, whether or not what it holds is legal. -/
theorem test_witness_records : ([
  done .recordPad (record 0 100) fun t => decide (t.ldr.job.map (·.inBody) = some false),
  (let s := record (rec' 1 1) 520; match s.loading with
    | some j => decide (j.record = some (rec' 1 1)) && decide (frameFault j header0 0x3005 1 = none) && decide (8 + 512 < j.body.length)
    | none => false),
  (let s := record (rec' 2 2) 520; match s.loading with
    | some j => decide (j.record = some (rec' 2 2)) && decide (frameFault j header0 0x3005 2 = none) && decide (8 + 512 < j.body.length)
    | none => false),
  -- (the frames' essential-word masks are there before)
  done (.recordZero []) (let s := record (rec' 3 2) 520; mea s 3 fun x => { x with live := { x.live with sigs := ⟨[(5, { essmap := 0, src := 0 }), (6, { essmap := 0, src := 0 })]⟩ } }) fun t =>
    decide (((t.mea 3).live.sigs.get {} 6).src = 2) && decide (t.ldr.job.map (·.body.length) = some 520),
  done .recordMem (record (pack [(4, 60), (3, 44), (1000, 31), (2, 0)]) 24) fun t => decide (t.mem.skim.read (8192 * 3 + 8000 + 15) = 0xA5) && decide (t.mem.skim.read (8192 * 3 + 8000 + 16) = 0),
  done .recordEssmap (record (rec' 6 2) 24) fun t => decide (((t.mea 3).live.sigs.get {} 6).essmap = 0xA5A5A5A5A5A5A5A5),
  done .recordEnd (record (rec' 15 0 0) 24 1) (failed · 9), done .recordPad (record (rec' 5 0 0) 24) (failed · 9)] : List Bool).all id = true := by decide +kernel

/-- The layout is open, so that no frames are known to be refused: if it refuses some, a load that has written them meets the clause. -/
theorem test_witness_refusedFrames (l : List (Nat × BitVec 4096)) (h : (Config.decodeFrames l).refused = true) :
    let p := Plane.zeroRest { frames := ⟨l⟩, sigs := ⟨[(0, { src := 1 })]⟩ } fun _ => true
    (p.given && (Config.decodeFrames p.frames.ents).refused) = true := by
  have e : (Plane.zeroRest { frames := ⟨l⟩, sigs := ⟨[(0, { src := 1 })]⟩ } fun _ => true).frames.ents = l := by
    simp [Plane.zeroRest, Tab.drop]
  simp only [e, h, Bool.and_true]; rfl

/-- The END of a partial image of meadow 3 whose records wrote every frame as zeros: no frame is left to verify wrong, whatever the
free value, and none is refused. -/
def endJob : Load := { src := .buffer, recoat := true, targets := [3], frames := List.range' 12288 3072 }
theorem test_witness_end (v : BitVec 64) : endJob.endFault v = none ∧ ∀ m ∈ endJob.meadows,
    (Plane.zeroRest ({} : Plane) fun f => endJob.frames.contains (4096 * m + f)).given = false := by
  refine ⟨?_, fun m _ => rfl⟩
  have h : endJob.frames.contains (12288 + v.toNat / 2 / 192 % 3072) = true := by
    rw [List.contains_iff_mem]
    exact List.mem_range'_1.mpr ⟨by omega, by have := Nat.mod_lt (v.toNat / 2 / 192) (show 0 < 3072 by decide); omega⟩
  have e : 4096 * endJob.meadows.getD (v.toNat / 2 % endJob.meadows.length) 0 = 12288 := by
    show 4096 * [3].getD (v.toNat / 2 % 1) 0 = 12288
    rw [Nat.mod_one]; rfl
  simp only [Load.endFault, e, h, not_true_eq_false, and_false, if_false]

/-- A frame that END writes zero can verify wrong: where the free value says so. -/
theorem test_witness_endFault (v : BitVec 64) (h : v.getLsbD 0 = true) : ∃ fa, (loading { src := .flash }).ldr.job.bind (·.endFault v) = some fa := by
  simp [loading, Load.endFault, h]

/-- CRC-32 over bytes of zero, from a remainder on. -/
def crcZeros (c : BitVec 32) (n : Nat) : BitVec 32 := (List.replicate n (0 : Byte)).foldl (fun c b => crcBits (c ^^^ b.setWidth 32) 8) c
theorem crc_zeros_add (c : BitVec 32) (m n : Nat) : crcZeros c (m + n) = crcZeros (crcZeros c m) n := by
  simp only [crcZeros, ← List.replicate_append_replicate, List.foldl_append]
theorem crc_zeros_1 : crcZeros 0xFFFFFFFF 64 = 0x8A729CC9 := by decide +kernel
theorem crc_zeros_2 : crcZeros 0xFFFFFFFF 128 = 0x3D570562 := by
  rw [show 128 = 64 + 64 from rfl, crc_zeros_add, crc_zeros_1]; decide +kernel
theorem crc_zeros_3 : crcZeros 0xFFFFFFFF 192 = 0x7400F70D := by
  rw [show 192 = 128 + 64 from rfl, crc_zeros_add, crc_zeros_2]; decide +kernel
theorem crc_zeros_4 : crcZeros 0xFFFFFFFF 256 = 0xF2697AA7 := by
  rw [show 256 = 192 + 64 from rfl, crc_zeros_add, crc_zeros_3]; decide +kernel
theorem crc_zeros_5 : crcZeros 0xFFFFFFFF 320 = 0x5238A8B2 := by
  rw [show 320 = 256 + 64 from rfl, crc_zeros_add, crc_zeros_4]; decide +kernel
theorem crc_zeros_6 : crcZeros 0xFFFFFFFF 384 = 0x77452EB8 := by
  rw [show 384 = 320 + 64 from rfl, crc_zeros_add, crc_zeros_5]; decide +kernel
theorem crc_zeros_7 : crcZeros 0xFFFFFFFF 448 = 0xB975E9BC := by
  rw [show 448 = 384 + 64 from rfl, crc_zeros_add, crc_zeros_6]; decide +kernel
theorem crc_zeros_8 : crcZeros 0xFFFFFFFF 512 = 0x4D558A87 := by
  rw [show 512 = 448 + 64 from rfl, crc_zeros_add, crc_zeros_7]; decide +kernel
/-- R381: the signature table entry of a frame written zero carries the CRC-32 of 512 zero bytes. -/
theorem test_crc_zero_frame : crc32 (List.replicate 512 0) = ({} : SigEntry).crc := by
  show ~~~(crcZeros 0xFFFFFFFF 512) = _
  rw [crc_zeros_8]; decide

/-- Meadow 3 masked since time 0, its swap edge reached or past. -/
def swapping (now : Nat) (swapped : Bool := false) : State :=
  let s := m3 fun x => { x with masked := true, swapped := swapped, frst := true, swapT := if swapped then none else some (0, 0, 0, false), under := { build := 7 }, live := { x.live with pers := { x.live.pers with swapClk := 5 } } }
  { s with tl := { s.tl with now := now } }
theorem test_witness_swap : ([
  done (.cueRecoatSwap 5) (due run0 0x0301 3 0) fun t => (t.mea 3).masked && (t.mea 3).swapT.isSome && (t.cue 5).launched,
  done (.recoatSwapEdge 3) (swapping (12000 * nsU)) fun t => decide ((t.mea 3).live.build = 7) && decide ((t.mea 3).ucState = .previous),
  idle (.recoatSwapEdge 3) (swapping (12000 * nsU - 1)), idle (.recoatSwapEdge 3) (swapping (13000 * nsU)),
  done (.swapForced 3) (swapping (13000 * nsU)) fun t => decide ((t.mea 3).live.build = 7) && decide ((t.mea 3).swaps = 1),
  done (.maskingRelease 3) (swapping 0 true) fun t => !(t.mea 3).masked && !(t.mea 3).frst && (t.mea 3).gate.ready] : List Bool).all id = true := by decide +kernel

def read0 : FrameRead := { single := [], uncorr := [], crcOk := true, entryBad := false, writeOk := true }
def scrubbing (f : Scrubber → Scrubber) (g : Meadow → Meadow := id) : State :=
  { mea run0 0 g with scr := ⟨[(0, f {})]⟩ }
theorem test_witness_scrub : ([
  done (.scrubFrameRead 0 read0) run0 fun t => decide ((t.mea 0).scrubAt = 1),
  done (.scrubFrameRead 0 { read0 with single := [4] }) run0 fun t => decide ((t.mea 0).scrubAt = 1) && decide ((t.scrub 0).ecc = 1),
  -- an upset bit that the check bits correct
  done (.scrubFrameRead 0 read0) (mea run0 0 fun x => { x with live := { x.live with frames := ⟨[(0, 1)]⟩, flips := ⟨[(0, 1)]⟩ } }) fun t =>
    decide ((t.mea 0).live.frames.get 0 0 = 0) && decide ((t.mea 0).live.flips.get 0 0 = 0) && decide ((t.scrub 0).ecc = 1),
  done (.scrubFrameRead 0 { read0 with uncorr := [4] }) run0 fun t => decide ((t.scrub 0).rebuild = some (0, 0, false, 1)),
  idle (.scrubFrameRead 0 read0) (inMode .load),
  done (.scrubStoreRebuild 0 true) (scrubbing fun c => { c with rebuild := some (0, 5, false, 1) }) fun t => decide ((t.mea 0).live.faulty = [5]) && decide ((t.scrub 0).faults = 1),
  done (.scrubUndercoatTurn 0 []) (scrubbing fun c => { c with turn := true }) fun t => !(t.scrub 0).turn,
  done (.scrubUndercoatTurn 0 []) (scrubbing (fun c => { c with turn := true }) fun x => { x with ucState := .verified }) fun t => decide ((t.scrub 0).lastUnder = 0),
  done (.configReadbackDone 0 []) (let s := onBuf run0; { s with ldr := { s.ldr with readback := [
    { cmd := loadBg 0x0305, meadow := 3, first := 0, count := 1, handle := 9, off := 0, world := true }] } }) fun t => decide (t.ldr.readback = [])] : List Bool).all id = true := by decide +kernel

/-- ScrubbersRun: the frame of a table entry of zeros is rebuilt from the store, if the block that the entry names opens: the
algorithms are open, so that no block is known to open. -/
theorem test_witness_rebuild (s u v : State) (hd : Nat) (e : SigEntry) (l raw p : List Byte) (he : e.src = 2) (hb : e.block.toNat = 0)
    (h1 : s.storeRead hd 0 512 = (u, some l)) (h2 : u.storeRead hd 512 65536 = (v, some raw))
    (h3 : openBlock (v.loadKey (parseHeader l).keySrc) (parseHeader l) (parseHeader l).digest 0 raw = some p) :
    s.storeFrame hd e = (v, some (List.replicate 512 0)) := by
  unfold State.storeFrame
  rw [h1]
  dsimp only
  rw [hb]
  unfold State.storeDigest
  rw [if_pos rfl]
  dsimp only
  rw [Nat.mul_zero, Nat.add_zero, h2]
  dsimp only
  rw [h3, Option.map_some, if_pos he]
theorem test_witness_rebuilding : ∀ s : State, s = scrubbing (fun c => { c with rebuild := some (0, 5, false, 1) }) (fun x => { x with live := { x.live with store := some 8 } }) →
    s.scrubs = true ∧ (s.scrub 0).rebuild = some (0, 5, false, 1) ∧ ((s.mea 0).plane false).store = some 8 ∧
      ((((s.mea 0).plane false).sigs.get {} 5).src, (((s.mea 0).plane false).sigs.get {} 5).block) = (2, 0) ∧
      crc32 (List.replicate 512 0) = (((s.mea 0).plane false).sigs.get {} 5).crc := by
  rintro s rfl
  exact ⟨by decide, by decide, by decide, by decide, test_crc_zero_frame⟩

/-! ## Clocks -/

/-- The clock unit changed. -/
def clk (s : State) (f : Clocks → Clocks) : State := { s with clk := f s.clk }
def gclk (f : GClk → GClk) : State := clk run0 fun c => { c with gclk := ⟨[(2, f {})]⟩ }
def floop (f : FLoop → FLoop) : State := clk run0 fun c => { c with loop := ⟨[(2, f { a1 := 3 })]⟩ }
theorem test_witness_clocks : ([
  gives (.loopConfigure 0) (on (floop fun x => { x with locked := true }) 0x0905 [2, 3, 5]) stOk fun t => (t.floop 2).locked && decide ((t.floop 2).a2 = 5),
  gives (.clockSwitchPref 0) (on run0 0x0903 [0x100]) stOk fun t => decide (t.clk.pref = 1) && t.clk.move,
  gives (.clockSwitchPref 0) (on run0 0x0903 [0x400]) stNotReady,
  done (.clockSwitch 0) (on run0 0x0903 [0x382]) fun t => decide ((t.gclk 2).sw = some (3, loadBg 0x0903)),
  gives (.clockSwitch 0) (on run0 0x0903 [0x482]) stNotReady,
  gives (.clockSwitchComplete 2 false) (on (gclk fun x => { x with sw := some (3, loadBg 0x0903) }) 0x0903 [0x382]) stOk fun t => decide ((t.gclk 2).src = 3) && decide ((t.gclk 2).switches = 1),
  gives (.clockSwitchComplete 2 true) (on (gclk fun x => { x with sw := some (3, loadBg 0x0903), stopped := true, src := 4 }) 0x0903 [0x382]) stOk fun t => (t.gclk 2).forced,
  gives (.clockGate 0) (on (clk run0 fun c => { c with serial := .gated }) 0x0904 [0x11040]) stIgnored,
  done (.clockGate 0) (on run0 0x0904 [0x11040]) fun t => decide (t.clk.serial = .closing) && decide (t.clk.closing = [(0x1040, loadBg 0x0904)]),
  gives (.clockUngate 0) (on run0 0x0904 [0x1040]) stIgnored,
  gives (.clockUngate 0) (on (clk run0 fun c => { c with serial := .gated }) 0x0904 [0x1040]) stOk fun t => decide (t.clk.serial = .opened),
  done (.clockGateClosed 0x1040) (clk run0 fun c => { c with serial := .closing }) fun t => decide (t.clk.serial = .gated),
  done (.freqMeasure 0) (on run0 0x0906 [3]) fun t => decide (t.clk.meas = [(3, loadBg 0x0906)]),
  -- a tap at a quarter of the root: 300,000 edges in 250 us, 1.2 GHz, whatever the pin says
  gives (.freqMeasureDone 6 1000) (on (clk run0 fun c => { c with meas := [(6, loadBg 0x0906)] }) 0x0906 [6]) stOk fun t =>
    decide (((t.mb 0).rsp.get {} 0).res.head? = some (run0.tapEdges 6 |> edgesHz)),
  gives (.freqMeasureDone 3 1000) (on (clk run0 fun c => { c with meas := [(3, loadBg 0x0906)] }) 0x0906 [3]) stOk fun t => decide (t.clk.meas = [])] : List Bool).all id = true := by decide +kernel

def coasting (pref : BitVec 8) (ready : Tab Bool) : State :=
  clk run0 fun c => { c with locked := false, coast := true, pref := pref, ready := ready }
theorem test_witness_clockHappenings : ([
  done (.sourceReady 4) (pwr (clk run0 fun c => { c with gclk := ⟨[(2, { src := 4, stopped := true })]⟩ }) fun p => { p with straps := { p.straps with xbMode := 1 } }) fun t =>
    t.clk.ready.get false 4 && !(t.gclk 2).stopped,
  done (.sourceDead 3) (clk run0 fun c => { c with gclk := ⟨[(2, { src := 3 })]⟩, loop := ⟨[(2, { a1 := 3, locked := true })]⟩ }) fun t =>
    t.clk.dead.get false 3 && (t.gclk 2).stopped && (t.floop 2).refLost && (t.floop 2).loss,
  done .coastTrim (clk run0 fun c => { c with trims := 999 }) fun t => t.clk.trimmed && decide (t.clk.trims = 1000),
  done .rootReferenceLost run0 fun t => t.clk.holding,
  done .rootCoast (clk run0 fun c => { c with holding := true }) fun t => t.clk.coast && decide (t.clk.coasts = 1) && decide (t.clk.ref = 0),
  -- a pending step: the range of the adjustment follows the reference
  done .rootCoast (let s := clk run0 fun c => { c with holding := true }; { s with tl := { s.tl with stepPend := some 9 } }) fun t =>
    decide (t.tl.adj = run0.servoRange),
  done .rootRelock (let s := coasting 1 ⟨[(1, true)]⟩; { s with tl := { s.tl with stepPend := some 9 } }) fun t =>
    t.clk.fast && decide (t.tl.adj = 3932160000),
  done .rootRelock (coasting 3 ⟨[(3, true)]⟩) fun t => t.clk.locked && decide (t.clk.ref = 3) && !t.clk.fast,
  idle .rootRelock (coasting 3 {}),
  done (.fabricLoopLock 2) (floop id) fun t => (t.floop 2).locked, done (.fabricLoopRefLost 2) (floop fun x => { x with locked := true }) fun t => (t.floop 2).refLost,
  done (.fabricLoopRelock 2) (floop fun x => { x with refLost := true }) fun t => (t.floop 2).locked && !(t.floop 2).refLost] : List Bool).all id = true := by decide +kernel

/-! ## Worlds, lifecycle, pins, registers -/

def life (l : Life) (f : Secure → Secure := id) : State := { run0 with sec := f { run0.sec with life := l } }
/-- The first five lines of buffer 9 are zero: an authorisation block whose every field lies in its range. -/
def authIn (s : State) : State := each (List.range 5) (fun i s =>
  (s.writeLine wardenAsker 0 0 i (List.replicate 64 0) (List.replicate 64 true)).s) (onBuf s)

theorem test_witness_worlds : ([
  gives (.worldSet 0) (on run0 0x0201 [0x10, 3]) stOk fun t => (t.mea 3).world, gives (.worldSet 0) (on run0 0x0201 [0x00, 3]) stIgnored,
  gives (.worldSet 0) (on (flow []) 0x0201 [0x11, 0]) stOk fun t => (t.ctx 0).world, gives (.worldSet 0) (on run0 0x0201 [0x12, 3]) stOk fun t => t.qWorld 24,
  gives (.worldSet 0) (on run0 0x0201 [0x13, 3]) stOk fun t => (t.row 3).world, gives (.worldSet 0) (on run0 0x0201 [0x14, 3]) stOk fun t => (t.mea 3).screedWorld,
  gives (.worldSet 0) (on run0 0x0201 [0x15, 2]) stOk, gives (.worldSet 0) (on run0 0x0201 [0x15, 0]) stBadArg, gives (.worldSet 0) (on run0 0x0201 [0x15, 1]) stBadArg,
  gives (.worldQuery 0) (on run0 0x0202 [0, 3]) stOk fun t => decide (((t.mb 0).rsp.get {} 0).res = [0]), gives (.worldQuery 0) (on run0 0x0202 [5, 1]) stBadArg] : List Bool).all id = true := by decide +kernel

theorem test_witness_life : ([
  gives (.lifecycleAdvance 0) (on (life .sealed) 0x0B03 [1, 9]) stBadArg, gives (.lifecycleAdvance 0) (on run0 0x0B03 [5, 9]) stBadArg,
  (match readBlock (authIn run0) 0 (cmd 0x0B03 [1, 9]) 1 272 with | (_, .ok b) => decide (authFault b .blank .opened = none) | _ => false),
  done .lifecycleFusesProgrammed (life .opened fun x => { x with adv := some (loadBg 0x0B03, .sealed, List.replicate 272 0xAB) }) fun t =>
    t.wrd.resetDue && decide (t.sec.fused = some .sealed) && decide (t.sec.tamperEn = 0xB) && decide (t.sec.ownerFuse = 3) && decide (t.sec.life = .opened),
  done .lifecycleFusesProgrammed (life .blank fun x => { x with adv := some (loadBg 0x0B03, .opened, List.replicate 272 0xAB) }) fun t =>
    decide (t.sec.ownerHash = List.replicate 48 0xAB) && decide (t.sec.subsys = 0xABABABAB),
  gives (.lifecycleQuery 0) (on run0 0x0B04 []) stOk] : List Bool).all id = true := by decide +kernel

/-- The pins of banks 0 and 1: pin 0 of meadow 40 drives the level of its output register, of standard 1. -/
def pinned (f : Option PinFault := none) : State :=
  let s := mea run0 40 fun x => { x with live := { x.live with pers := { x.live.pers with ios := ⟨[(0, { std := 1, clk := 1, oreg := 1 })]⟩ } } }
  s.setPin 0 { fault := f, reg := { oe := true } }
def ser (k : Nat) (x : Serial) (f : Personality → Personality := id) : State :=
  { mea run0 47 (fun m => { m with live := { m.live with pers := f { m.live.pers with hbPins := 0xFF } } }) with io := { run0.io with ser := ⟨[(k, x)]⟩ } }
def enabled : Serial := { ctrl := 0x80000000 }
def flashOp (o : Option (BitVec 2 × BitVec 8)) : State := { run0 with io := { run0.io with
  ufOp := o, uf := { cells := [(2048 * 3 + 5, 0x0F)], dflt := 0xFF }, ufBuf := { cells := (List.range 2048).map fun i => (i, 0x3C), dflt := 0 } } }
def full64 (x : Serial) : Serial := { x with tx := List.replicate 64 1, rx := List.replicate 64 2 }

theorem test_witness_io : ([
  done (.gpioShortDetect 0 0) (pinned) fun t => decide ((t.pin 0).fault = some .short) && decide ((t.bank 0).shorts = 1),
  idle (.gpioShortDetect 0 0) (pinned (some .vccio)), idle (.gpioShortDetect 0 1) (pinned),
  gives (.gpioRetry 0) (on (pinned (some .short)) 0x0A06 [0]) stOk fun t => decide ((t.pin 0).fault = none),
  gives (.gpioRetry 0) (on (pinned) 0x0A06 [0]) stIgnored,
  done (.heritageDataRead 0 2) (ser 2 { enabled with rx := [7, 8] }) fun t => decide ((t.serial 2).rx = [8]) && decide (t.out = [.read 0 (leBytes 8 263)]),
  done (.heritageDataWrite 0 2 0x1FFF) (ser 2 enabled) fun t => decide ((t.serial 2).tx = [0xFF]),
  done (.heritageDataWrite 0 6 0x1FFF) (ser 6 enabled) fun t => decide ((t.serial 6).tx = [0x1FFF]),
  idle (.heritageDataWrite 0 2 1) (ser 2 (full64 enabled)),
  done (.heritageDataWrite 0 2 1) (ser 2 enabled fun p => { p with hbFabric := 4 }) fun t => decide ((t.serial 2).tx = []) && decide ((t.mb 0).gatedAcc = 1),
  done (.heritageDataWrite 2 2 1) (ser 2 enabled) fun t => decide ((t.mb 2).denied = 1),
  done (.heritageSerialByte 2 (.received 9 false)) (ser 2 enabled) fun t => decide ((t.serial 2).rx = [9]),
  done (.heritageSerialByte 2 (.received 9 false)) (ser 2 (full64 enabled)) fun t => decide ((t.serial 2).err = 1),
  done (.heritageSerialByte 2 .sent) (ser 2 { enabled with tx := [3] }) fun t => decide ((t.serial 2).tx = []) && decide (t.out = [.serial 2 3]),
  done (.heritageSerialByte 6 .nack) (ser 6 { enabled with tx := [3] }) fun t => decide ((t.serial 6).err = 4),
  done (.heritageSerialByte 6 .lostArbitration) (ser 6 { enabled with rx := [1] }) fun t => decide ((t.serial 6).err = 8),
  done (.ufErasePage 0 3) (flashOp none) fun t => decide (t.io.ufOp = some (1, 3)), done (.ufProgramPage 0 3) (flashOp none) fun t => decide (t.io.ufOp = some (2, 3)),
  done (.ufErasePage 0 3) (flashOp (some (2, 1))) fun t => t.io.ufErr && decide (t.io.ufOp = some (2, 1)),
  done .ufOperationDone (flashOp (some (1, 3))) fun t => t.io.ufDone && decide (t.io.uf.read (2048 * 3 + 5) = 0xFF) && decide (t.io.ufErases.get 0 3 = 1)] : List Bool).all id = true := by decide +kernel

/-- HeritageUnitsRun: the programming of page 3 in progress. -/
theorem test_witness_program : (flashOp (some (2, 3))).io.ufOp = some (2, 3) ∧ (flashOp (some (2, 3))).io.uf.dflt = 0xFF := by decide

def at5 : State := { run0 with tl := { run0.tl with now := 5 * secU + 7 * nsU, stepped := true, skewFault := true } }
def mapped (s : State := onBuf run0) : State := { s with pool := { s.pool with slice := ⟨[(0, some (9, 0))]⟩ } }

theorem test_witness_registers : ([
  idle (.registerWrite 0 0x1000 4 (.write 5)) (inMode .lockdown), done (.registerWrite 0 0x1001 4 (.write 5)) run0 fun t => decide ((t.mb 0).gatedAcc = 1),
  done (.registerWrite 0 0x1008 4 (.write 5)) run0 fun t => decide ((t.mb 0).cmd.get 0 2 = 5),
  done (.registerWrite 0 0x10110 8 (.write (2 ^ 51))) (floop fun x => { x with loss := true }) fun t => !(t.floop 2).loss,
  done (.registerWrite 2 0x1E8000 8 (.write 5)) run0 fun t => decide ((t.mb 2).denied = 1), done (.registerWrite 0 0x1E8000 8 (.write 5)) run0 fun t => decide (t.io.ufBank = 5),
  -- reads without a row of their own: dead, misaligned, of a register that is its owner's
  done (.registerWrite 0 0x1000 4 .read) (inMode .lockdown) fun t => decide (t.out = [.read 0 [0, 0, 0, 0]]),
  done (.registerWrite 0 0x1001 4 .read) run0 fun t => decide ((t.mb 0).gatedAcc = 1) && decide (t.out = [.read 0 [0, 0, 0, 0]]),
  done (.registerWrite 2 0x10100 8 .read) run0 fun t => decide ((t.mb 2).denied = 1) && decide (Out.read 2 (List.replicate 8 0) ∈ t.out),
  done (.tlSecRead 0) at5 fun t => decide (t.tl.secLatch.get 0 0 = 5) && decide (t.tl.nsLatch.get 0 0 = 7 * 2 ^ 32),
  done (.tlSecRead 0) { at5 with pwr := { run0.pwr with mode := .lockdown } } fun t => decide (t.out = [.read 0 (List.replicate 8 0)]),
  done (.tlStatusClear 0 0x100) at5 fun t => !t.tl.stepped && t.tl.skewFault, done (.tlStatusClear 2 0x100) at5 fun t => t.tl.stepped && decide ((t.mb 2).denied = 1),
  done (.unitAccessTimeout 0 true) run0 fun t => decide ((t.mb 0).gatedAcc = 1) && decide (t.out.length = 1), done (.unitAccessTimeout 0 false) run0 fun t => decide (t.out = []),
  done (.bar2Write 0 0 (List.replicate 513 0) []) (mapped) fun t => decide ((t.mb 0).gatedAcc = 1),
  done (.bar2Write 0 (2 ^ 26) [1] [true]) (mapped) fun t => decide ((t.mb 0).apMiss = 1),
  done (.bar2Write 0 3 [0xEE] [true]) (mapped) fun t => decide ((t.lineData 0 0).take 5 = [1, 1, 1, 0xEE, 1]),
  done (.bar2Write 0 3 [0xEE] [true]) (mapped (let s := onBuf run0; { s with hbm := { s.hbm with pch := ⟨[(0, { st := .failed })]⟩ } })) fun t => decide ((t.mb 0).evW = 1),
  -- in HOLD the access waits
  done (.bar2Write 0 3 [0xEE] [true]) (mapped (heldS (onBuf run0))) fun t => decide (t.hg.held.length = 1) && decide (t.out = []),
  done (.bar2Read 0 0 513) (mapped) fun t => decide ((t.mb 0).gatedAcc = 1), done (.bar2Read 0 (2 ^ 26) 4) (mapped) fun t => decide ((t.mb 0).apMiss = 1),
  done (.bar2Read 0 8 4) (mapped) fun t => decide (t.out = [.read 0 [1, 1, 1, 1]])] : List Bool).all id = true := by decide +kernel

def linked (x : PcieLink) : State := { run0 with pcie := ⟨[(0, x)]⟩ }
def alerting : State := run0.updMb 4 fun m => { m with evW := 1 }
theorem test_witness_linksSmb : ([
  done (.pcieConfigRequest 0 0 none) run0 fun t => decide (t.out = [.cfg 0 none]),
  done (.pcieConfigRequest 0 0 none) (linked { cfgReady := true }) fun t => decide (t.out = [.cfg 0 (some 0x96121F3A)]),
  done (.pcieConfigRequest 0 9 (some 4)) (linked { cfgReady := true }) fun t => decide ((t.link 0).cfg.get 0 9 = 4), idle (.pcieConfigRequest 1 0 none) run0,
  done (.pcieLinkUp 0 6 16 false) (linked { st := 1 }) fun t => decide ((t.link 0).st = 2) && (t.link 0).flit && (t.link 0).cfgReady,
  idle (.pcieLinkUp 0 6 16 false) (linked {}),
  done (.hostLinkReset 0 true) (linked { cfg := ⟨[(3, 5)]⟩, st := 2 }) fun t => decide ((t.link 0).cfg = {}) && decide ((t.link 0).st = 2),
  done (.hostLinkReset 0 false) (linked { cfgReady := true, st := 2 }) fun t => decide ((t.link 0).st = 4) && decide ((t.link 0).downs = 1) && !(t.link 0).cfgReady,
  done (.smbSetPointer ⟨0x55, [4, 0x10, 0]⟩ true) run0 fun t => decide ((t.mb 4).gatedAcc = 1) && decide (t.out = [.smb none]),
  done (.smbSetPointer ⟨0x10, [4, 0x10, 0]⟩ true) run0 fun t => decide (t.wrd.smbPtr = 0x1004), done (.smbSetPointer ⟨0x10, [5, 0, 0]⟩ true) run0 fun t => decide ((t.mb 4).gatedAcc = 1),
  done (.smbWrite [1, 0, 0, 0] true) { run0 with wrd := { run0.wrd with smbPtr := 0x1008 } } fun t => decide ((t.mb 4).cmd.get 0 2 = 1) && decide (t.wrd.smbPtr = 0x100C),
  done (.smbWrite [1, 0] true) run0 fun t => decide (t.out = [.smb none]), done (.smbRead 4 false) run0 fun t => decide (t.out = [.smb none]),
  done (.smbRead 8 true) run0 fun t => decide (t.out.length = 1), done (.smbRead 4 true) run0 fun t => decide (t.wrd.smbPtr = 4),
  done .smbAlertResponse alerting fun t => decide (t.out.length = 1) && decide (t.free = 1), done .smbAlertResponse run0 fun t => decide (t.out = [.smb none])] : List Bool).all id = true := by decide +kernel

/-- PcieLinksRun: a host that enables ASPM L1, in HOLD, wherever the capability lies. -/
theorem test_witness_aspm (v : BitVec 32) (h : v.getLsbD 1 = true) (x : PcieLink) :
    PcieLink.aspm { x with cfg := x.cfg.set 0 (Config.capPcie + 4) v } = true := by
  simpa [PcieLink.aspm] using h

/-! ## Debug port and run control -/

def jtag (t : State) (ir : Jtag) (n v : Nat) : Bool := decide (t.dbg.ir = ir) && decide (t.out = [.jtag n v])
def refused (t : State) : Bool := decide (t.dbg.ir = .bypass) && decide (t.dbg.refused = 1)
def inLoad : State := inMode .load
theorem test_witness_debug : ([
  done .idcode run0 (jtag · .idcode 32 0x19612C35), done .bypass run0 (jtag · .bypass 1 0), done .clamp inLoad (jtag · .clamp 1 0), done .clamp run0 refused,
  done .highz inLoad (jtag · .highz 1 0), done .highz run0 refused, done .dbgStatus run0 fun t => decide (t.dbg.ir = .dbgStatus),
  done (.extest [true, false, true] [true]) inLoad fun t => decide (t.dbg.ir = .extest) && decide (t.out = [.jtag 3 5, .scanned [true]]) && decide (t.dbg.bsr = [true]), done (.extest [] []) run0 refused,
  done (.samplePreload [true] []) run0 (jtag · .sample 1 1), done (.extestPulse [] []) run0 refused, done (.extestTrain [true] []) inLoad (fun t => decide (t.dbg.ir = .extestTrain) && decide (t.out.take 2 = [.jtag 1 1, .scanned []])),
  done .trstNReset { run0 with dbg := { run0.dbg with ir := .clamp } } fun t => decide (t.dbg.ir = .idcode),
  (life .sealed).available .dbgChallenge, !(life .sealed).available .dbgAccess, run0.available .dbgAccess] : List Bool).all id = true := by decide +kernel

def unlock (f : Secure → Secure := id) (mode : Mode := .run) : State :=
  pwr (life .sealed f) fun p => { p with mode := mode }
/-- Random words are opaque: the tests look at what does not depend on them. -/
theorem test_witness_unlock : ([
  done (.debugChallenge 0) (on (unlock) 0x0B01 []) fun t => t.sec.chal.isSome && decide (t.sec.chalSeq = 1) && decide ((t.mb 0).running = none),
  gives (.debugChallenge 0) (on run0 0x0B01 []) stNotReady, gives (.debugUnlock 0) (on run0 0x0B02 [9]) stNotReady,
  done .dbgChallenge (unlock) fun t => t.sec.chal.isSome && decide (t.dbg.ir = .dbgChallenge),
  done .challengeLapse (unlock fun x => { x with chal := some 5 }) fun t => decide (t.sec.chal = none),
  (match readBlock (authIn (unlock)) 0 (cmd 0x0B02 [9]) 0 224 with | (_, .ok _) => true | _ => false), decide ((unlock).sec.verifying = none),
  -- a response without an outstanding challenge fails
  gives (.debugUnlock 0) (on (authIn (unlock)) 0x0B02 [9]) stDenied fun t => decide (t.sec.fails = 1) && decide (t.sec.failRun = 1),
  done (.dbgResponse []) (unlock) fun t => decide (t.sec.fails = 1) && decide (t.dbg.last = stDenied.setWidth 4) &&
    t.wrd.windows.any (fun w => w.1 = 6 && w.2.1 = 0 && w.2.2.1 = 10),
  done .debugUnlockComplete (unlock fun x => { x with verifying := some none, keyRam := some 5 }) fun t => decide (t.pwr.mode = .service) && t.sec.unlocked && decide (t.sec.keyRam = none),
  done (.keyProgram 1 5) run0 fun t => decide (t.dbg.key = some (1, 5)), done (.keyProgram 1 5) (unlock) refused,
  done .keyProgramDone { run0 with dbg := { run0.dbg with key := some (1, 5) } } fun t => decide (t.sec.efuse = some 5) && decide (t.dbg.last = 0),
  done .keyProgramDone { life .blank (fun x => { x with efuse := some 4 }) with dbg := { run0.dbg with key := some (1, 5) } } fun t => decide (t.sec.efuse = some 4) && decide (t.dbg.last = stBusy.setWidth 4),
  done .keyProgramDone { life .blank (fun x => { x with vbat := true }) with dbg := { run0.dbg with key := some (2, 5) } } fun t => decide (t.sec.keyRam = some 5),
  done .keyProgramDone { run0 with dbg := { run0.dbg with key := some (2, 5) } } fun t => decide (t.dbg.last = stNotReady.setWidth 4),
  done .keyProgramDone { run0 with dbg := { run0.dbg with key := some (3, 5) } } fun t => decide (t.dbg.last = stBadArg.setWidth 4), idle .keyProgramDone run0] : List Bool).all id = true := by decide +kernel

/-- Engine 0 in a state of run control, with W1 set. -/
def eng (st : EngState) (f : Engine → Engine := id) : State :=
  { run0 with stp := { run0.stp with eng := ⟨[(0, f { st := st, w := ⟨[(1, 5)]⟩ })]⟩ } }
def stOf (t : State) : EngState := (t.eng 0).st
theorem test_witness_runControl : ([
  idle (.engineHaltRequest 0) (unlock), idle .wardenHalt (unlock),
  done (.engineHaltRequest 0) (eng .idle) fun t => decide (stOf t = .halted) && decide ((t.eng 0).cause = 1),
  done (.engineHaltRequest 0) (eng .running) fun t => decide (stOf t = .haltPending),
  done (.engineResume 0) (eng .halted fun x => { x with task := some 3 }) fun t => decide (stOf t = .running) && decide ((t.eng 0).wdog = 1000),
  idle (.engineResume 0) (eng .running), idle (.engineStep 0) (eng .running),
  done (.engineStep 0) (eng .halted fun x => { x with task := some 3 }) fun t => decide (stOf t = .stepping),
  done .wardenHalt run0 fun t => t.wrd.halted, done .wardenResume { run0 with wrd := { run0.wrd with halted := true } } fun t => !t.wrd.halted,
  done (.engineHalted 0) (eng .haltPending fun x => { x with reqCause := 5 }) fun t => decide (stOf t = .halted) && decide ((t.eng 0).cause = 5),
  idle (.engineHalted 0) (eng .haltPending fun x => { x with locked := true }),
  done (.haltForceTimeout 0) (eng .haltPending fun x => { x with locked := true, resv := some 4 }) fun t => (t.eng 0).forced && decide ((t.eng 0).resv = none),
  done .dbgHaltNLow (eng .idle fun x => { x with xtrig := true }) fun t => decide (stOf t = .halted),
  done .dbgHaltNLow (eng .running fun x => { x with xtrig := true }) fun t => decide (stOf t = .haltPending),
  -- a step ends as a step
  idle (.engineHaltRequest 0) (eng .stepping), done .dbgHaltNLow (eng .stepping fun x => { x with xtrig := true }) fun t => decide (stOf t = .stepping)] : List Bool).all id = true := by decide +kernel

/-- Addresses: W1 of engine 0, instruction 9 of engine 0, the warden's control. -/
def w1 : BitVec 64 := BitVec.ofNat 64 (5 * 2 ^ 60 + 0x108)
def ins9 : BitVec 64 := BitVec.ofNat 64 (6 * 2 ^ 60 + 9)
theorem test_witness_dbgAccess : ([
  done (.dbgAccessRead (.read w1)) (eng .halted) fun t => decide (t.dbg.data = 5) && decide (t.dbg.status = 0) && decide (t.dbg.addr = w1),
  done (.dbgAccessReadInc w1) (eng .halted) fun t => decide (t.dbg.next = w1 + 8),
  done (.dbgAccessWrite w1 7) (eng .halted) fun t => decide ((t.eng 0).w.get 0 1 = 7), done (.dbgAccessWriteInc w1 7) (eng .halted) fun t => decide ((t.eng 0).w.get 0 1 = 7),
  done (.dbgAccessWrite w1 7) (eng .running) fun t => decide ((t.eng 0).w.get 0 1 = 5) && decide (t.dbg.status = hsError.setWidth 4),
  done (.dbgAccessWrite ins9 7) (eng .halted) fun t => decide (t.mem.pmem.get 0 9 = 7),
  done (.dbgAccessWrite (BitVec.ofNat 64 (7 * 2 ^ 60)) 1) run0 fun t => t.wrd.halted,
  done (.dbgAccessRead (.read w1)) { eng .halted with dbg := { run0.dbg with op := some 4 } } fun t => decide (t.dbg.op = some 4) && decide (t.out.length = 1),
  done (.dbgAccessWrite w1 7) { unlock with dbg := { run0.dbg with ir := .dbgAccess } } fun t => decide (t.dbg.refused = 1) && decide (t.dbg.status = hsDenied.setWidth 4) && decide (t.dbg.addr = w1),
  done (.dbgAccessRead (.noOp 7 w1)) run0 fun t => decide (t.dbg.status = hsRange.setWidth 4) && decide (t.dbg.addr = w1),
  done (.dbgAccessRead .capture) { run0 with dbg := { run0.dbg with ir := .dbgAccess } } fun t => decide (t.out = [.jtag 132 run0.dbg.captured]) && decide (t.dbg.op = none),
  done (.dbgAccessRead (.noInstr 0x7F)) run0 refused] : List Bool).all id = true := by decide +kernel

/-! ## Single rules and rules over the whole machine -/

def held (n : Nat) : State := (bell n true).updMb 0 fun m => m
def popping (head : List QWord) : State := queued 2 head []
theorem test_witness_single : ([
  done (.mbDoorbell 0 0) (held 64) fun t => (t.mb 0).heldBell && decide ((t.mb 0).expect = 0),
  decide ((held 64).blocked 0 (cmd 0x0102 []) = false) && done (.commandStart 0) (held 64) fun t => decide ((t.mb 0).expect = 1) && decide ((t.mb 0).accepted.length = 64),
  decide ((popping [word0]).window 0 3 = some (0, 1, true)) && done (.queueWindowPop 0 3 0) (popping [word0]) fun t => decide ((t.queue 0).drain = []),
  done (.queueWindowPop 0 3 1) (popping [word0]) fun t => decide ((t.queue 0).popIgn = 1), done (.queueWindowPop 0 3 0) (popping []) fun t => decide ((t.queue 0).popIgn = 1)] : List Bool).all id = true := by decide +kernel

/-- ColumnsThroughHold: meadow 9 ON goes into HOLD and comes back. -/
theorem test_witness_columns : (match exec .holdEntryComplete (pwr run0 fun p => { p with entering := some modeBg }) with
    | .next t =>
      let u := pwr t fun p => { p with exiting := true, coreLow := false }
      decide (t.pwr.mode = .hold) && decide ((u.mea 9).colHold = (t.mea 9).colHold) && done .holdExitResume u fun v => decide ((v.mea 9).col = .on)
    | _ => false) = true := by decide +kernel

/-- LifecycleChangesOnly and LockdownIsFinal: each of their alternatives. -/
theorem test_witness_final : ([
    done (.scratchpadWipeDone false) { State.reset with sec := { run0.sec with fused := some .opened } } fun t => decide (t.sec.life = .opened),
    done .idcode (inMode .lockdown) fun t => decide (t.pwr.mode = .lockdown),
    done .powerOnReset (inMode .lockdown) fun t => decide (t.pwr.mode = .boot), done (.railFail .aux) (inMode .lockdown) fun t => decide (t.pwr.mode = .boot)] : List Bool).all id = true := by
  decide +kernel

/-! ## Well-formedness: an ill-formed term for each check -/

theorem test_wf_refuses : ([
    (Instr.laneSelftestDone 0 5 6 0).wf, (Instr.registerWrite 0 0 0 (.write 0)).wf, (Instr.registerWrite 0 0 9 (.write 0)).wf, (Instr.registerWrite 0 0 0 .read).wf, (Instr.registerWrite 0 0 4097 .read).wf,
    (Instr.dbgAccessRead (.noOp 4 0)).wf, (Instr.dbgAccessRead (.noInstr 0x01)).wf, (Instr.extest [true] []).wf,
    (Instr.bar2Write 0 0 [1] []).wf, (Instr.bar2Write 0 0 (List.replicate 513 0) (List.replicate 513 true)).wf, (Instr.bar2Read 0 0 4097).wf,
    (Instr.smbSetPointer ⟨0x10, List.replicate 256 0⟩ true).wf, (Instr.smbSetPointer ⟨0x11, []⟩ true).wf, (Instr.smbWrite (List.replicate 256 0) true).wf, (Instr.smbRead 256 true).wf,
    (Instr.hedgerowBread .warden 0 0 0 4).wf, (Instr.hedgerowBread .warden 0 0 4 8).wf, (Instr.hedgerowBread .warden 0 0 0 4104).wf,
    (Instr.hedgerowBwrite .warden 0 0 0 (List.replicate 8 0) []).wf, (Instr.hedgerowDread .warden 0 4 8).wf, (Instr.hedgerowDread .warden 0 0 0).wf,
    (Instr.hedgerowDwrite .warden 0 0 (List.replicate 12 0) (List.replicate 12 true)).wf, (Instr.gateTargetRequest 0 .warden false true 0 [1] [] 0).wf,
    (Instr.gateTargetRequest 0 .warden false false 4 [] [] 0).wf, (Instr.scrubUndercoatTurn 0 (List.replicate 3073 (0, read0))).wf,
    (Instr.recordFrames (List.replicate 3073 0)).wf, (Instr.recordRepeat (List.replicate 3073 0)).wf, (Instr.recordZero (List.replicate 3073 0)).wf,
    (Instr.deniedWindowEnd 9 0 0).wf, (Instr.deniedWindowEnd 0 0 11).wf, (Instr.dbgResponse (List.replicate 223 0)).wf] : List Bool).all (· = false) = true := by
  decide +kernel
theorem test_wf_takes : ([(Instr.registerWrite 0 8 8 (.write 0)).wf, (Instr.registerWrite 0 8 8 .read).wf, (Instr.dbgAccessRead (.noOp 5 0)).wf, (Instr.extest [true] [false]).wf, (Instr.smbSetPointer ⟨0x55, []⟩ true).wf, (Instr.hedgerowBread .warden 0 0 8 4096).wf, (Instr.deniedWindowEnd 8 0 10).wf,
    (Instr.dbgResponse (List.replicate 224 0)).wf, (Instr.nop 0).wf] : List Bool).all id = true := by decide +kernel

/-! ## Worked examples of the spec -/

/-- 03, "a registered word adder": cells 0-15 of tussock 0 hold 0x7FF0 + 0x0025 = 0x8015 after the edge. -/
def adder : State := mea run0 0 fun x => { x with live := { x.live with pers := { x.live.pers with
  tufts := ⟨[(0, { clkSel := 1 }), (1, { clkSel := 1 })]⟩
  tussocks := ⟨[(0, { wiLo := true })]⟩
  sel := ⟨takes (.wordIn 0) 16 :: (List.range 16).map fun i => takes (.cell i 1) i⟩
  cells := ⟨(List.range 16).map fun i => (i, { tbl := 0x66666666AAAAAAAA, fracture := true, carryUse := true, dselA := 1 })⟩ } } }
def adderIn : List FabIn := ((List.range 16).map fun i => .hard 0 i (BitVec.ofNat 16 (fld 0x25 i 1))) ++ [.hard 0 16 0x7FF0]
theorem test_word_adder : done (.fabricClockEdge 0 true adderIn []) adder (fun t =>
    decide (((List.range 16).map fun i => bit ((t.mea 0).ffs.get (false, false) i).1 * 2 ^ i).sum = 0x8015)) = true := by decide +kernel

/-- 06, "a cued swap with words left over": the words of both banks leave in the order C, B, E, D with their epoch bits. -/
def swapWords : State :=
  let w := fun d p e => ({ data := d, prio := p, epoch := e, slot := 1 } : QWord)
  let s := queued 0 [w 0xB 0 0xF, w 0xC 2 0xF] [w 0xD 1 0, w 0xE 3 0]
  { s with que := { s.que with q := s.que.q.upd {} 0 fun q => { q with epoch := 0x40 } } }
def heads : Nat → Queue → List (Nat × Nat)
  | 0, _ => []
  | n + 1, q => (q.head.map fun w => (w.data.toNat, w.epoch.toNat)).toList ++ heads n q.pop
theorem test_cued_swap : done (.cueQueueBankSwap 5) (due swapWords 0x0401 0 0) (fun t => decide ((t.queue 0).epoch = 0x41) &&
    decide (heads 5 (t.queue 0) = [(0xC, 0xF), (0xB, 0xF), (0xE, 0), (0xD, 0)])) = true := by decide +kernel

/-- 07, main mode with rounding and saturation: the slice after edges n to n + 4. -/
def slice1 (fallback : Bool) (rshift : BitVec 6) : State := mea run0 0 fun x => { x with
  live := { x.live with pers := { x.live.pers with
    trowels := ⟨[(0, {
      fallback := fallback, clk := 1, inStage := true, mulStage := true, outStage := true, accSat := true, outSat := true, rshift := rshift })]⟩
    sel := ⟨((List.range 6).map fun i => takes (.trowelWord 0 i) i) ++ (List.range 8).map fun i => takes (.trowelBit 0 i) (6 + i)⟩ } } }
def edges (s : State) : List (List FabIn) → State
  | [] => s
  | i :: r => match exec (.trowelSliceUpdate 0 0 i) s with | .next t => edges t r | _ => s
def operands (aRe aIm bRe bIm : BitVec 16) (ksel : BitVec 2) : List FabIn := mac true aRe aIm bRe bIm ksel
def chroma : List (List FabIn) := [operands 0x4000 0xC000 0x6000 0x2000 1, operands 0x7FFF 0x0003 0x7FFF 0xFFFF 0, operands 0 0 0 0 3, operands 0 0 0 0 3, operands 0 0 0 0 3]
theorem test_trowel_main : (decide (accOf (edges (slice1 false 15) (chroma.take 3)) = (536870912, -268435456)) &&
    decide (accOf (edges (slice1 false 15) (chroma.take 4)) = (1610547204, -268369922)) &&
    (let x := (edges (slice1 false 15) chroma |>.mea 0).trowels.get {} 0; decide (x.rRe = 0x7FFF) && x.ovfRe && decide (x.rIm = 0xE002) && !x.ovfIm)) = true := by
  decide +kernel
theorem test_trowel_fallback : (let x := (edges (slice1 true 23) (List.replicate 5 (operands 0 0x40 1 0xC0 1)) |>.mea 0).trowels.get {} 0
    decide (x.rRe = 1) && decide (x.rIm = 0xFFE0) && !x.ovfRe) = true := by decide +kernel
theorem test_rounding_ties : [49152, -49152, -16384, 16383].map (fun v => roundShift v 15) = [2, -1, 0, 0] := by decide

/-- 08, "a pipelined butterfly over one line": V0, V3, V4 and V5 of iteration 4, where RBASE is 60. -/
theorem test_rotation : [0, 3, 4, 5].map (({ rbase := 60 } : Engine).vphys ·) = [60, 63, 0, 1] := by decide

/-- 19, "a timeline-steered 297 MHz clock": the arguments of the example pass, and a multiplier of 255 does not (R407). -/
def loopCmd (a1 : BitVec 64) : State := run0.updMb 0 fun m => { m with accepted := [cmd 0x0905 [18, a1, 0x10000]] }
theorem test_loop_configure : done (.commandStart 0) { loopCmd 0x0010851EB82F0009 with clk := { run0.clk with ready := ⟨[(1, true), (3, true), (9, true)]⟩ } } (fun t =>
      decide ((t.mb 0).running.isSome)) = true ∧
    done (.commandStart 0) { loopCmd 0x0010000000FF0009 with clk := { run0.clk with ready := ⟨[(1, true), (3, true), (9, true)]⟩ } } (fun t =>
      decide (((t.mb 0).rsp.get {} 0).status = stBadArg)) = true := by refine ⟨by decide +kernel, by decide +kernel⟩

/-- R345: an argument out of the range that the rule names is answered BAD_ARG, and CAUSE is the byte offset of its field in the command. -/
def badArg (op : BitVec 16) (args : List (BitVec 64)) (off : Nat) : Bool :=
  done (.commandStart 0) (run0.updMb 0 fun m => { m with accepted := [cmd op args] }) fun t =>
    decide (((t.mb 0).rsp.get {} 0).status = stBadArg) && decide (((t.mb 0).rsp.get {} 0).cause.toNat = off)
theorem test_bad_args : [badArg 0x0402 [0, 1000000000] 16, badArg 0x0703 [0, 1000001] 16, badArg 0x0707 [0] 9, badArg 0x0802 [0, 0] 16,
    badArg 0x0601 [0, 0] 16, badArg 0x0103 [] 8].all id = true := by decide +kernel

end Sys2Proof.Tests
end

section
/-! SUPPORT. What an access to the memories leaves of the fabric: the hedgerow's buffers, the HBM controllers, the scrim engine and
the screed blocks keep their contents outside it, so that serving an access changes no meadow. -/

namespace Sys2Proof.Machine

/-! ## Folds that keep a part of the state -/

theorem foldl_keeps {α σ β : Type} (p : σ → β) {f : σ → α → σ} (hf : ∀ s a, p (f s a) = p s) (l : List α) (s : σ) :
    p (l.foldl f s) = p s := by
  induction l generalizing s with
  | nil => rfl
  | cons a r ih => exact (ih (f s a)).trans (hf s a)

theorem each_keeps {α σ β : Type} (p : σ → β) {f : α → σ → σ} (hf : ∀ a s, p (f a s) = p s) (l : List α) (s : σ) :
    p (each l f s) = p s :=
  foldl_keeps p (fun s a => hf a s) l s

theorem each_fab {α : Type} (l : List α) (f : α → State → State) (hf : ∀ a s, (f a s).fab = s.fab) (s : State) :
    (each l f s).fab = s.fab :=
  each_keeps State.fab hf l s

/-! ## The warden's operations -/

/-- Where only the warden's records differ, the fabric is the same. -/
theorem Same.fab {s t : State} (h : Same s t) : t.fab = s.fab := by rw [h]

@[simp] theorem State.eventAt_fab (s : State) (l : List Nat) (code : BitVec 16) (d : BitVec 96) (t : Nat) :
    (s.eventAt l code d t).fab = s.fab := (eventAt_same s l code d t).fab
@[simp] theorem State.event_fab (s : State) (l : List Nat) (code : BitVec 16) (v : List Nat) : (s.event l code v).fab = s.fab :=
  (event_same s l code v).fab
@[simp] theorem State.ownerEvent_fab (s : State) (code : BitVec 16) (v : List Nat) : (s.ownerEvent code v).fab = s.fab :=
  (ownerEvent_same s code v).fab
@[simp] theorem State.deny_fab (s : State) (kind index res i : Nat) : (s.deny kind index res i).fab = s.fab :=
  (deny_same s kind index res i).fab
@[simp] theorem State.finish_fab (s : State) (b : Bg) (st : BitVec 8) (c : BitVec 16) (l : List Nat) : (s.finish b st c l).fab = s.fab :=
  (finish_same s b st c l).fab
@[simp] theorem State.setMode_fab (s : State) (m : Mode) : (s.setMode m).fab = s.fab := eventAt_fab _ _ _ _ _

/-! ## The pseudo-channels and their controllers -/

@[simp] theorem State.updPch_fab (s : State) (p : Nat) (f : Pch → Pch) : (s.updPch p f).fab = s.fab := rfl
@[simp] theorem State.updRegion_fab (s : State) (r : Nat) (f : Region → Region) : (s.updRegion r f).fab = s.fab := rfl
@[simp] theorem State.updSlice_fab (s : State) (i : Nat) (f : Slice → Slice) : (s.updSlice i f).fab = s.fab := rfl
@[simp] theorem State.setMark_fab (s : State) (pc la : Nat) (m : Mark) : (s.setMark pc la m).fab = s.fab := rfl
@[simp] theorem State.setUpset_fab (s : State) (pc la : Nat) (u : LineUpset) : (s.setUpset pc la u).fab = s.fab := rfl
@[simp] theorem State.poisonRead_fab (s : State) (pc : Nat) : (s.poisonRead pc).fab = s.fab := rfl
@[simp] theorem State.partialRefused_fab (s : State) (pc : Nat) : (s.partialRefused pc).fab = s.fab := rfl

@[simp] theorem State.allPch_fab (s : State) (f : Pch → Pch) : (s.allPch f).fab = s.fab := by
  rw [State.allPch, each_fab]; exact fun _ _ => rfl

@[simp] theorem State.wakePch_fab (s : State) (pc : Nat) : (s.wakePch pc).fab = s.fab := by
  unfold State.wakePch; split <;> rfl

@[simp] theorem State.request_fab (s : State) (pc port la : Nat) (write : Bool) (at_ : Option Nat) :
    (s.request pc port la write at_).fab = s.fab := by simp [State.request]

@[simp] theorem State.countLate_fab (s : State) (pc : Nat) (r : HbmReq) (t : Nat) : (s.countLate pc r t).fab = s.fab := by
  unfold State.countLate; dsimp only; split <;> rfl

@[simp] theorem State.serveN_fab (s : State) (pc n t : Nat) : (s.serveN pc n t).fab = s.fab := by
  induction n generalizing s t with
  | zero => rfl
  | succ n ih =>
    unfold State.serveN
    split
    · rfl
    · dsimp only; rw [ih]; split <;> simp

@[simp] theorem State.serveAll_fab (s : State) : s.serveAll.fab = s.fab := by
  rw [State.serveAll, each_fab]; exact fun pc t => serveN_fab t pc _ _

/-! ## Free bytes and lines -/

@[simp] theorem State.drawBytes_fab (s : State) (n : Nat) : (s.drawBytes n).2.fab = s.fab := by
  induction n generalizing s with
  | zero => rfl
  | succ n ih => simpa [State.drawBytes] using ih s.draw.2

@[simp] theorem State.ceInterval_fab (s : State) : s.ceInterval.fab = s.fab := by
  unfold State.ceInterval; dsimp only; split
  · rfl
  · rw [each_fab]; exact fun _ _ => rfl

@[simp] theorem State.countCorrected_fab (s : State) (pc : Nat) : (s.countCorrected pc).fab = s.fab := by
  unfold State.countCorrected; dsimp only; split <;> simp

@[simp] theorem State.startRoll_fab (s : State) (r : Nat) (cause : BitVec 3) (integ : Bool) : (s.startRoll r cause integ).fab = s.fab := by
  unfold State.startRoll; dsimp only
  split
  · rfl
  · split
    · rfl
    · split
      · rfl
      · split <;> rfl

@[simp] theorem State.fold_fab (s : State) (r p : Nat) : (s.fold r p).fab = s.fab := by
  unfold State.fold; dsimp only; split <;> simp

@[simp] theorem State.countWrite_fab (s : State) (pc la : Nat) : (s.countWrite pc la).fab = s.fab := by
  unfold State.countWrite; dsimp only
  split
  · rfl
  · split <;> simp

@[simp] theorem State.putLine_fab (s : State) (pc la : Nat) (data : List Byte) : (s.putLine pc la data).fab = s.fab := by
  simp [State.putLine]

@[simp] theorem State.poisonLine_fab (s : State) (finder : Option Nat) (pc la cause : Nat) :
    (s.poisonLine finder pc la cause).fab = s.fab := by simp [State.poisonLine]

@[simp] theorem State.badCodeRead_fab (s : State) (finder : Option Nat) (pc la cause : Nat) :
    (s.badCodeRead finder pc la cause).fab = s.fab := by simp [State.badCodeRead]

@[simp] theorem State.badTagRead_fab (s : State) (finder : Option Nat) (pc la : Nat) : (s.badTagRead finder pc la).fab = s.fab := by
  simp [State.badTagRead]

@[simp] theorem State.look_fab (s : State) (pc la : Nat) : (s.look pc la).2.fab = s.fab := by
  unfold State.look; dsimp only
  split
  · rfl
  · rfl
  · split
    · rfl
    · have hd (u : LineUpset) : (if u.onDie then (s.setUpset pc la { u with onDie := false }).countCorrected pc else s).fab = s.fab := by
        split <;> simp
      split <;> simp [hd]

theorem State.fab_of_look {s t : State} {pc la : Nat} {x : Seen} (h : s.look pc la = (x, t)) : t.fab = s.fab := by
  simpa [h] using look_fab s pc la

@[simp] theorem State.readLine_fab (s : State) (a : Asker) (port pc la : Nat) : (s.readLine a port pc la).s.fab = s.fab := by
  unfold State.readLine; dsimp only
  split
  · rfl
  · split
    · rfl
    · split
      · simp
      · split <;> (rename_i h; simp [fab_of_look h])

@[simp] theorem State.writeLine_fab (s : State) (a : Asker) (port pc la : Nat) (data : List Byte) (be : List Bool) :
    (s.writeLine a port pc la data be).s.fab = s.fab := by
  unfold State.writeLine; dsimp only
  split
  · rfl
  · split
    · rfl
    · split
      · simp
      · split
        · simp
        · split <;> (rename_i h; simp [fab_of_look h])

@[simp] theorem State.fillGran_fab (s : State) (h g : Nat) : (s.fillGran h g).fab = s.fab := by
  unfold State.fillGran
  split
  · split
    · rw [setBuf_fab]
      refine each_fab _ _ (fun o t => ?_) s
      split
      · dsimp only; split <;> simp
      · rfl
    · rfl
  · rfl

/-! ## Screed blocks -/

@[simp] theorem State.memUncorrectable_fab (s : State) (kind block row lane : Nat) : (s.memUncorrectable kind block row lane).fab = s.fab :=
  ownerEvent_fab _ _ _

@[simp] theorem State.screedReport_fab (s : State) (k : Nat) (offs : List Nat) : (s.screedReport k offs).fab = s.fab := by
  rw [State.screedReport, each_fab]; exact fun _ t => memUncorrectable_fab t _ _ _ _

@[simp] theorem State.screedWriteLane_fab (s : State) (k off al : Nat) (d : BitVec 16) (lo hi : Bool) :
    (s.screedWriteLane k off al d lo hi).1.fab = s.fab := by
  unfold State.screedWriteLane; dsimp only
  split
  · rfl
  · split <;> rfl

@[simp] theorem State.screedWrite_fab (s : State) (k off al : Nat) (data : List Byte) (be : List Bool) :
    (s.screedWrite k off al data be).1.fab = s.fab := by
  induction s, off, data, be using State.screedWrite.induct k al with
  | case1 s off d0 d1 ds e0 e1 es t x hLane u y hRest ih =>
    have hl : t.fab = s.fab := by simpa [hLane] using screedWriteLane_fab s k off al (d1 ++ d0) e0 e1
    simpa [State.screedWrite, hLane] using ih.trans hl
  | case2 s off data be h => rw [State.screedWrite]; exact h

@[simp] theorem Got.denied_fab (s : State) (kind index n : Nat) : (Got.denied s kind index n).s.fab = s.fab := rfl

@[simp] theorem State.screedRead_fab (s : State) (a : Asker) (k off n : Nat) : (s.screedRead a k off n).s.fab = s.fab := by
  unfold State.screedRead
  split
  · rfl
  · split <;> simp [State.screedBytes]

@[simp] theorem State.screedPut_fab (s : State) (a : Asker) (k off al : Nat) (data : List Byte) (be : List Bool) :
    (s.screedPut a k off al data be).s.fab = s.fab := by
  unfold State.screedPut
  split
  · rfl
  · split <;> simp

/-! ## Buffers -/

@[simp] theorem Got.andThen_fab (g : Got) (f : State → Got) (hf : ∀ s, (f s).s.fab = s.fab) : (g.andThen f).s.fab = g.s.fab := hf g.s

@[simp] theorem Got.report_fab (g : Got) (a : Asker) : (g.report a).s.fab = g.s.fab := by
  unfold Got.report
  split
  · split <;> simp
  · rfl

@[simp] theorem Got.whole_fab (g : Got) (n : Nat) : (g.whole n).s.fab = g.s.fab := by
  unfold Got.whole; split <;> simp

@[simp] theorem State.bufLineRead_fab (s : State) (a : Asker) (h : Nat) (b : Buf) (off : Nat) :
    (s.bufLineRead a h b off).s.fab = s.fab := by
  unfold State.bufLineRead; dsimp only
  split
  · split <;> simp
  · simp
  · simp

@[simp] theorem State.bufLineWrite_fab (s : State) (a : Asker) (h : Nat) (b : Buf) (off : Nat) (data : List Byte) (be : List Bool) :
    (s.bufLineWrite a h b off data be).s.fab = s.fab := by
  unfold State.bufLineWrite; dsimp only
  split
  · rw [writeLine_fab]; split <;> simp
  · simp
  · rfl

@[simp] theorem State.bufLines_fab (s : State) (a : Asker) (h : Nat) (b : Buf) (off n : Nat) : (s.bufLines a h b off n).1.fab = s.fab :=
  foldl_keeps (fun acc : State × List LineGot × Option (Nat × Nat) => acc.1.fab) (fun acc o => bufLineRead_fab acc.1 a h b o) _ _

@[simp] theorem State.bufFetch_fab (s : State) (a : Asker) (h off n : Nat) : (s.bufFetch a h off n).1.fab = s.fab := by
  unfold State.bufFetch
  split
  · split <;> simp
  · rfl
  · simp

@[simp] theorem State.bufReadOne_fab (s : State) (a : Asker) (h off n : Nat) : (s.bufReadOne a h off n).s.fab = s.fab :=
  bufFetch_fab s a h off n

@[simp] theorem State.bufReadAll_fab (s : State) (a : Asker) (h off n : Nat) : (s.bufReadAll a h off n).s.fab = s.fab :=
  foldl_keeps (fun g : Got => g.s.fab) (fun g _ => Got.andThen_fab g _ fun t => bufReadOne_fab t a h _ _) _ _

@[simp] theorem State.bufWriteOne_fab (s : State) (a : Asker) (keep : Bool) (h off : Nat) (data : List Byte) (be : List Bool) :
    (s.bufWriteOne a keep h off data be).s.fab = s.fab := by
  unfold State.bufWriteOne
  split
  · split <;> simp
  · rfl
  · rw [Got.report_fab]
    refine foldl_keeps (fun g : Got => g.s.fab) (fun g o => Got.andThen_fab g _ fun t => ?_) _ _
    dsimp only
    split
    · split <;> simp
    · rfl

@[simp] theorem State.bufWriteAll_fab (s : State) (a : Asker) (keep : Bool) (h off : Nat) (data : List Byte) (be : List Bool) :
    (s.bufWriteAll a keep h off data be).s.fab = s.fab :=
  foldl_keeps (fun g : Got => g.s.fab) (fun g _ => Got.andThen_fab g _ fun t => bufWriteOne_fab t a keep h _ _ _) _ _

@[simp] theorem State.apWrite_fab (s : State) (a : Asker) (h off : Nat) (data : List Byte) (be : List Bool) :
    (s.apWrite a h off data be).s.fab = s.fab := by
  unfold State.apWrite; dsimp only; split <;> simp

/-! ## The accesses that HOLD has held, and what restarts behind them -/

@[simp] theorem State.hgAnswer_fab (s : State) (r : Requester) (tag : Nat) (g : Got) : (s.hgAnswer r tag g).fab = g.s.fab := rfl

@[simp] theorem State.writeFailed_fab (s : State) (h hd off : Nat) (st : BitVec 3) : (s.writeFailed h hd off st).fab = s.fab :=
  event_fab _ _ _ _

/-- Whichever kind of access was held, in time or late, its answer and its report leave the fabric. -/
@[simp] theorem State.resumeOne_fab (s : State) (q : HeldReq) : (s.resumeOne q).fab = s.fab := by
  unfold State.resumeOne
  extract_lets late
  clear_value late
  split <;> cases late <;> simp [apply_ite State.fab]

@[simp] theorem State.resumeHeld_fab (s : State) : s.resumeHeld.fab = s.fab := by
  rw [State.resumeHeld, serveAll_fab, each_fab]; exact fun q t => resumeOne_fab t q

@[simp] theorem State.endTargets_fab (s : State) (l : List GateReq) (st : BitVec 3) : (s.endTargets l st).fab = s.fab := by
  refine each_fab l _ (fun q t => ?_) s
  split <;> rfl

@[simp] theorem State.allLoops_fab (s : State) (f : FLoop → FLoop) : (s.allLoops f).fab = s.fab := by
  rw [State.allLoops, each_fab]; exact fun _ _ => rfl

@[simp] theorem State.ctxExitHold_fab (s : State) (c : Nat) : (s.ctxExitHold c).fab = s.fab := by
  unfold State.ctxExitHold; dsimp only
  split
  · rfl
  · split
    · rfl
    · split <;> rfl

@[simp] theorem State.sdiRestart_fab (s : State) (j : Nat) : (s.sdiRestart j).fab = s.fab := by
  unfold State.sdiRestart; dsimp only; split <;> rfl

end Sys2Proof.Machine
end

section
/-! SUPPORT. The memory columns through HOLD (spec/05, R101): what the rows that enter and leave HOLD do to the meadows. -/

namespace Sys2Proof.Machine

/-! ## Every meadow at once -/

/-- Where the fabric is the same, so is each meadow. -/
theorem State.mea_of_fab {s t : State} (h : t.fab = s.fab) (m : Nat) : t.mea m = s.mea m := by unfold State.mea; rw [h]

/-- The first `n` meadows changed one after the other: each of them by `f`, the others not. -/
theorem State.mea_each_updMea (s : State) (f : Meadow → Meadow) (n m : Nat) :
    (each (List.range n) (fun k t => t.updMea k f) s).mea m = if m < n then f (s.mea m) else s.mea m := by
  induction n with
  | zero => rfl
  | succ n ih =>
    have hs : each (List.range (n + 1)) (fun k t => t.updMea k f) s = (each (List.range n) (fun k t => t.updMea k f) s).updMea n f := by
      simp [each, List.range_succ]
    rw [hs, State.updMea]
    by_cases hm : m = n
    · subst hm; simp [ih]
    · rw [mea_setMea_ne _ _ _ hm, ih]
      simp only [show m < n + 1 ↔ m < n by omega]

theorem State.mea_allMea (s : State) (f : Meadow → Meadow) (m : MeadowId) : (s.allMea f).mea m = f (s.mea m) := by
  rw [State.allMea, mea_each_updMea, if_pos m.isLt]

/-! ## A request at a gate leaves every column -/

theorem State.updMea_col (s : State) (k m : Nat) {f : Meadow → Meadow} (hf : ∀ x, (f x).col = x.col) :
    ((s.updMea k f).mea m).col = (s.mea m).col := by
  by_cases hm : m = k
  · subst hm; simp [State.updMea, hf]
  · rw [State.updMea, mea_setMea_ne _ _ _ hm]

theorem State.present_col (s : State) (k : Nat) (q : GateReq) (m : Nat) : ((s.present k q).mea m).col = (s.mea m).col := by
  unfold State.present
  split
  · exact updMea_col _ _ _ fun _ => rfl
  · exact updMea_col (f := fun x => { x with gate.target := x.gate.target ++ [q] }) s k m fun _ => rfl

theorem State.resumeTarget_col (s : State) (k : Nat) (q : GateReq) (m : Nat) : ((s.resumeTarget k q).mea m).col = (s.mea m).col := by
  unfold State.resumeTarget
  split
  · rw [mea_of_fab (endTargets_fab _ _ _)]
  · exact present_col _ _ _ _

/-! ## Entry and exit (R101, R429, R433) -/

@[simp] theorem State.holdAllPins_fab (s : State) : s.holdAllPins.fab = s.fab := by
  rw [State.holdAllPins, each_fab]; exact fun _ _ => rfl

@[simp] theorem State.updScrub_fab (s : State) (h : Nat) (f : Scrubber → Scrubber) : (s.updScrub h f).fab = s.fab := rfl

theorem State.wake_fab (s : State) : s.wake.fab = s.fab := by unfold State.wake; split <;> rfl

/-- A device reset that waited for HOLD ends in BOOT; all else that came during the entry leaves the fabric. -/
theorem State.afterEntry_fab {s : State} {late : Option (BitVec 8)} {wakeN : Bool} (h : (s.afterEntry late wakeN).pwr.mode = .hold) :
    (s.afterEntry late wakeN).fab = s.fab := by
  cases late with
  | some c => exact absurd h (by simp [State.afterEntry, State.deviceReset, State.afterReset])
  | none =>
    unfold State.afterEntry
    cases wakeN
    · rfl
    · exact wake_fab s

/-- What a row that enters HOLD can do: nothing, or, once the meadows have entered and the other units with them, change the
mode, answer the command, and do what came during the entry. -/
theorem holdEntryComplete_cases {s t : State} (h : exec .holdEntryComplete s = .next t) :
    t = s ∨ ∃ (w : State) (b : Bg) (late : Option (BitVec 8)) (wakeN : Bool), w.fab = (s.holdAllPins.allMea Meadow.enterHold).fab ∧
      t = ((w.setMode .hold).finish b stOk).afterEntry late wakeN := by
  change execHoldEntryComplete s = .next t at h
  unfold execHoldEntryComplete at h
  split at h
  · exact .inl (Host.Outcome.next.inj h).symm
  · split at h
    · exact .inl (Host.Outcome.next.inj h).symm
    · refine .inr ⟨_, _, _, _, ?_, (Host.Outcome.next.inj h).symm⟩
      dsimp only
      rw [each_fab _ _ fun h t => t.updScrub_fab h _, State.allLoops_fab, State.allPch_fab, each_fab _ _ fun n t => t.setLink_fab n _]

/-- An entry that reaches HOLD leaves each meadow as `Meadow.enterHold` gives it. -/
theorem holdEntryComplete_mea {s t : State} (h : exec .holdEntryComplete s = .next t) (hs : s.pwr.mode ≠ .hold)
    (ht : t.pwr.mode = .hold) (m : MeadowId) : t.mea m = (s.mea m).enterHold := by
  obtain rfl | ⟨w, b, late, wakeN, hw, rfl⟩ := holdEntryComplete_cases h
  · exact absurd ht hs
  · have hf : (((w.setMode .hold).finish b stOk).afterEntry late wakeN).fab = (s.holdAllPins.allMea Meadow.enterHold).fab := by
      rw [State.afterEntry_fab ht, State.finish_fab, State.setMode_fab, hw]
    rw [State.mea_of_fab hf, State.mea_allMea, State.mea_of_fab (State.holdAllPins_fab s)]

/-- What a row that leaves HOLD can do with the fabric: nothing, or let the meadows leave and give their gates the requests that
HOLD has held; all that comes after that leaves the fabric. -/
theorem holdExitResume_cases {u v : State} (h : exec .holdExitResume u = .next v) :
    v = u ∨ ∃ (w : State) (held : List (Nat × List GateReq)), w.fab = u.fab ∧
      v.fab = (each held (fun p s => each p.2 (fun q s => s.resumeTarget p.1 q) s) (w.allMea Meadow.exitHold)).fab := by
  change execHoldExitResume u = .next v at h
  unfold execHoldExitResume at h
  split at h
  · exact .inl (Host.Outcome.next.inj h).symm
  · obtain rfl := Host.Outcome.next.inj h
    refine .inr ⟨?w, ?held, ?before, ?after⟩
    case after =>
      dsimp only
      rw [each_fab _ _ fun b t => t.finish_fab b _ _ _, State.setMode_fab]
      dsimp only
      rw [each_fab _ _ fun n t => t.setLink_fab n _, each_fab _ _ fun j t => t.sdiRestart_fab j,
        each_fab _ _ fun c t => t.ctxExitHold_fab c, State.resumeHeld_fab]
    case before => rw [State.allPch_fab, State.allLoops_fab]

/-- A return to RUN gives each column the state it had before HOLD. -/
theorem holdExitResume_col {u v : State} (h : exec .holdExitResume u = .next v) (hu : u.pwr.mode = .hold) (hv : v.pwr.mode = .run)
    (m : MeadowId) : (v.mea m).col = (u.mea m).colHold.getD (u.mea m).col := by
  obtain rfl | ⟨w, held, hw, hf⟩ := holdExitResume_cases h
  · exact absurd (hu.symm.trans hv) (by decide)
  · calc (v.mea m).col = ((w.allMea Meadow.exitHold).mea m).col := by
          rw [State.mea_of_fab hf]
          exact each_keeps (fun s : State => (s.mea m).col)
            (fun p s => each_keeps (fun s : State => (s.mea m).col) (fun q s => s.resumeTarget_col p.1 q m) p.2 s) held _
      _ = (w.mea m).exitHold.col := by rw [State.mea_allMea]
      _ = (u.mea m).colHold.getD (u.mea m).col := by rw [State.mea_of_fab hw]; rfl

/-- Settles O58: the entry puts every meadow through `Meadow.enterHold`, which notes its column, and the exit gives the column
back; between the meadows' exit and RUN, nothing that is resumed changes a column. -/
theorem columnsThroughHold : Obligations.ColumnsThroughHold := by
  intro s t u v m _ _ hEntry ht hs
  have hm : t.mea m = (s.mea m).enterHold := holdEntryComplete_mea hEntry hs ht m
  refine ⟨fun hOn => ?_, fun hOff => ?_, fun hKept hExit hu hv => ?_⟩
  · simp [hm, Meadow.enterHold, hOn]
  · simp [hm, Meadow.enterHold, hOff]
  · rw [holdExitResume_col hExit hu hv, hKept, hm]
    rfl

end Sys2Proof.Machine
end

section
/-! SUPPORT and O57. What a write to POP of a window makes of the queues: the head's delivery and the count of an ignored write
change the one queue the window is bound to. -/

namespace Sys2Proof.Machine

/-! ## Delivery of a head word -/

/-- Where only the warden's records differ, every queue is the same. -/
theorem Same.queue {s t : State} (h : Same s t) (p : Nat) : t.queue p = s.queue p := by rw [h]; rfl

/-- A delivery is the removal of the head word and at most an event, the report of an uncorrectable row (R123). -/
theorem State.deliver_same (s : State) (q : Nat) : Same (s.setQueue q (s.queue q).pop) (s.deliver q) := by
  unfold State.deliver
  dsimp only
  split
  · split
    · exact State.ownerEvent_same _ _ _
    · exact Same.refl _
  · exact Same.refl _

@[simp] theorem State.queue_deliver_self (s : State) (q : Nat) : (s.deliver q).queue q = (s.queue q).pop := by
  rw [(s.deliver_same q).queue, State.queue_setQueue_self]

theorem State.queue_deliver_ne (s : State) {p q : Nat} (hp : p ≠ q) : (s.deliver q).queue p = s.queue p := by
  rw [(s.deliver_same q).queue, State.queue_setQueue_ne _ _ _ hp]

/-! ## Writes to POP -/

/-- Hosts reach `q` as the consumers of its head (R505): the queue is enabled, its column is ON, and its configuration names the
windows and the hedgerow as its consumer. -/
structure State.presentsToHosts (s : State) (q : Nat) : Prop where
  colOn : s.qCol q = .on
  consumer : (s.qCfg q).cons = 2
  enabled : s.qEnabled q = true

section
variable {s : State} {h n q sl : Nat} {v : BitVec 64}

/-- A POP with the SEQ of a presented head delivers it (R127). -/
theorem State.windowPop_delivers (hw : s.window h n = some (q, sl, true)) (hm : s.windowsServed = true)
    (hr : reaches (s.hostWorld h) (s.qWorld q) = true) (hq : s.presentsToHosts q)
    (hHead : (s.queue q).head.isSome = true) (hSeq : v.setWidth 16 = (s.queue q).seq) : s.windowPop h n v = s.deliver q := by
  simp [State.windowPop, hw, hm, hr, hq.consumer, hq.enabled, hq.colOn, hHead, hSeq]

/-- A POP without a head, or with another SEQ, is counted and does nothing else (R127). -/
theorem State.windowPop_ignored (hw : s.window h n = some (q, sl, true)) (hm : s.windowsServed = true)
    (hr : reaches (s.hostWorld h) (s.qWorld q) = true) (hq : s.presentsToHosts q)
    (hBad : (s.queue q).head = none ∨ v.setWidth 16 ≠ (s.queue q).seq) :
    s.windowPop h n v = s.setQueue q { s.queue q with popIgn := satInc (s.queue q).popIgn } := by
  have hNot : ¬ ((s.queue q).head.isSome = true ∧ v.setWidth 16 = (s.queue q).seq) := by
    rintro ⟨hHead, hSeq⟩
    obtain hNone | hOther := hBad
    · simp [hNone] at hHead
    · exact hOther hSeq
  simp [State.windowPop, hw, hm, hr, hq.consumer, hq.enabled, hq.colOn, hNot]

end

/-- While the always-on domain works, the row of a write to POP gives the state that `State.windowPop` gives. -/
theorem exec_queueWindowPop {s : State} (ha : s.alive = true) (h : HostId) (n : WindowId) (v : BitVec 64) :
    exec (.queueWindowPop h n v) s = .next (s.windowPop h n v) := by
  change execQueueWindowPop h n v s = _
  rw [execQueueWindowPop, if_pos ha]

/-- Settles O57: with the presented SEQ the write is the head's delivery, otherwise the count of an ignored write; both change
the window's own queue only. -/
theorem windowPopActs : Obligations.WindowPopActs := by
  intro s h n q sl v ha hMode hw hr hCol hCons hEn
  have hm : s.windowsServed = true := by simpa [State.windowsServed] using hMode
  have hq : s.presentsToHosts q := ⟨hCol, hCons, hEn⟩
  refine ⟨fun hHead hSeq => ⟨_, exec_queueWindowPop ha h n v, ?_⟩, fun hBad => ⟨_, exec_queueWindowPop ha h n v, ?_⟩⟩
  · rw [State.windowPop_delivers hw hm hr hq hHead hSeq]
    exact ⟨s.queue_deliver_self q, fun p hp => s.queue_deliver_ne hp⟩
  · rw [State.windowPop_ignored hw hm hr hq hBad]
    exact ⟨State.queue_setQueue_self _ _ _, fun p hp => State.queue_setQueue_ne _ _ _ hp, State.setQueue_out _ _ _⟩

end Sys2Proof.Machine
end

section
/-! SUPPORT and O56. What a doorbell reads and writes of a mailbox, and that no event and no response touches it: the start of a
command takes up the doorbell held, and the answer to a command that fails a check leaves what was taken up. -/

namespace Sys2Proof.Machine

/-! ## The acceptance part of a mailbox -/

/-- What a doorbell writes of a mailbox: the accepted commands, MB_EXPECT_SEQ, the doorbell held and MB_IGNORED_COUNT. -/
def Mbox.bells (m : Mbox) : List Cmd × BitVec 32 × Bool × BitVec 32 := (m.accepted, m.expect, m.heldBell, m.ignored)

/-- The acceptance part of host `h`'s mailbox. -/
def State.bells (s : State) (h : Nat) : List Cmd × BitVec 32 × Bool × BitVec 32 := (s.mb h).bells

theorem State.bells_setMb {s : State} {g : Nat} {m : Mbox} (hm : m.bells = s.bells g) (h : Nat) : (s.setMb g m).bells h = s.bells h := by
  by_cases hg : h = g
  · subst hg; rw [State.bells, mb_setMb_self, hm]
  · rw [State.bells, mb_setMb_ne _ _ _ hg, State.bells]

theorem State.updMb_bells {f : Mbox → Mbox} (hf : ∀ m, (f m).bells = m.bells) (s : State) (g h : Nat) :
    (s.updMb g f).bells h = s.bells h := bells_setMb (hf _) h

@[simp] theorem State.msi_bells (s : State) (g v h : Nat) : (s.msi g v).bells h = s.bells h := by
  unfold State.msi; split <;> rfl

/-! ## Events and refusals leave it -/

@[simp] theorem State.putEvent_bells (s : State) (g : Nat) (e : Ev) (h : Nat) : (s.putEvent g e).bells h = s.bells h := by
  unfold State.putEvent; dsimp only
  split
  · rw [msi_bells, bells_setMb]; rfl
  · rw [bells_setMb]; rfl

@[simp] theorem State.postEvent_bells (s : State) (g : Nat) (code : BitVec 16) (d : BitVec 96) (t h : Nat) :
    (s.postEvent g code d t).bells h = s.bells h := by
  unfold State.postEvent; dsimp only
  split
  · rfl
  · split
    · exact putEvent_bells _ _ _ _
    · rw [bells_setMb]; rfl

@[simp] theorem State.flushBoot_bells (s : State) (h : Nat) : s.flushBoot.bells h = s.bells h := by
  have hAll (code : BitVec 16) (d : BitVec 96) (l : List Nat) (u : State) :
      (each l (fun g v => v.postEvent g code d v.tl.now) u).bells h = u.bells h :=
    each_keeps (fun v : State => v.bells h) (fun g v => postEvent_bells v g code d v.tl.now h) l u
  unfold State.flushBoot
  split
  · rfl
  · dsimp only
    split
    · rw [hAll, hAll]; rfl
    · rw [hAll]; rfl

@[simp] theorem State.eventAt_bells (s : State) (l : List Nat) (code : BitVec 16) (d : BitVec 96) (t h : Nat) :
    (s.eventAt l code d t).bells h = s.bells h := by
  rw [State.eventAt, each_keeps (fun v : State => v.bells h) fun g v => postEvent_bells v g code d t h, flushBoot_bells]

@[simp] theorem State.deny_bells (s : State) (kind index res i h : Nat) : (s.deny kind index res i).bells h = s.bells h := by
  unfold State.deny
  split
  · rfl
  · exact eventAt_bells _ _ _ _ _ _

/-! ## Responses leave it -/

@[simp] theorem State.putRsp_bells (s : State) (g : Nat) (r : Rsp) (h : Nat) : (s.putRsp g r).bells h = s.bells h := by
  unfold State.putRsp; dsimp only
  split
  · rw [msi_bells, bells_setMb]; rfl
  · rw [bells_setMb]; rfl

@[simp] theorem State.respond_bells (s : State) (g : Nat) (r : Rsp) (h : Nat) : (s.respond g r).bells h = s.bells h := by
  unfold State.respond; dsimp only
  split
  · exact putRsp_bells _ _ _ _
  · rw [bells_setMb]; rfl

@[simp] theorem State.finish_bells (s : State) (b : Bg) (st : BitVec 8) (c : BitVec 16) (l : List Nat) (h : Nat) :
    (s.finish b st c l).bells h = s.bells h := by
  unfold State.finish
  split
  · exact respond_bells _ _ _ _
  · rfl

/-- A response, be it the first, the final or one that waits, leaves the acceptance part as the command's meaning left it. -/
@[simp] theorem State.reply_bells (g : Nat) (c : Cmd) (a : Ans) (h : Nat) : (State.reply g c a).bells h = a.s.bells h := by
  have hDone : (a.s.updMb g fun m => { m with running := none }).bells h = a.s.bells h :=
    updMb_bells (f := fun m => { m with running := none }) (fun _ => rfl) a.s g h
  have hOwed (t : State) : (if (t.mb g).waiting = [] ∧ (t.mb g).rspUsed < 64 then t
      else t.updMb g fun m => { m with owed := some c }).bells h = t.bells h := by
    split
    · rfl
    · exact updMb_bells (f := fun m => { m with owed := some c }) (fun _ => rfl) t g h
  unfold State.reply
  split
  · rfl
  · dsimp only
    split
    · rw [finish_bells, respond_bells, hOwed]; split <;> exact hDone
    · rw [respond_bells, hOwed]; split <;> exact hDone

/-! ## What a doorbell does (R337, R338) -/

section
variable {s : State} {h : Nat} {v : BitVec 32}

/-- A doorbell of another value, or whose slot holds another SEQ, is counted. -/
theorem State.doorbell_ignored (hBad : v ≠ (s.mb h).expect ∨ (s.mb h).slot v 0 ≠ v) :
    s.doorbell h v = s.setMb h { s.mb h with ignored := satInc (s.mb h).ignored } := by
  rw [State.doorbell, if_pos hBad]

/-- The expected doorbell, with its SEQ in its slot, is held while the warden cannot take it. -/
theorem State.doorbell_held (hv : v = (s.mb h).expect) (hSlot : (s.mb h).slot v 0 = v)
    (hFull : s.wrd.halted = true ∨ 64 ≤ (s.mb h).accepted.length) :
    s.doorbell h v = s.setMb h { s.mb h with heldBell := true } := by
  rw [State.doorbell, if_neg (by simp [← hv, hSlot]), if_pos hFull]

/-- The expected doorbell, with its SEQ in its slot, is accepted when there is room. -/
theorem State.doorbell_accepts (hv : v = (s.mb h).expect) (hSlot : (s.mb h).slot v 0 = v) (hRun : s.wrd.halted = false)
    (hRoom : (s.mb h).accepted.length < 64) :
    s.doorbell h v = s.setMb h { s.mb h with
      accepted := (s.mb h).accepted ++ [s.slotCmd h v], expect := v + 1, heldBell := false } := by
  rw [State.doorbell, if_neg (by simp [← hv, hSlot]), if_neg (by simp [hRun, hRoom]), hv]

/-- The command in a slot is the same whatever changes in the mailbox but its command ring and the host's world. -/
theorem State.slotCmd_setMb {m : Mbox} (hCmd : m.cmd = (s.mb h).cmd) (hWorld : m.world = (s.mb h).world) :
    (s.setMb h m).slotCmd h v = s.slotCmd h v := by
  have hHost : (s.setMb h m).hostWorld h = s.hostWorld h := by
    rw [State.hostWorld, State.mb_setMb_self, State.setMb_pwr, hWorld, State.hostWorld]
  have hSlot (i : Nat) : m.slot v i = (s.mb h).slot v i := by rw [Mbox.slot, hCmd, Mbox.slot]
  simp only [State.slotCmd, State.mb_setMb_self, State.setMb_tl, hHost, hSlot]

/-- A doorbell held is accepted once there is room. -/
theorem State.heldDoorbell_accepts (hHeld : (s.mb h).heldBell = true) (hSlot : (s.mb h).slot (s.mb h).expect 0 = (s.mb h).expect)
    (hRun : s.wrd.halted = false) (hRoom : (s.mb h).accepted.length < 64) :
    (s.heldDoorbell h).bells h =
      ((s.mb h).accepted ++ [s.slotCmd h (s.mb h).expect], (s.mb h).expect + 1, false, (s.mb h).ignored) := by
  rw [State.heldDoorbell, if_pos hHeld, State.doorbell_accepts (by rw [State.mb_setMb_self]) (by rwa [State.mb_setMb_self])
    (by simpa using hRun) (by simpa using hRoom), State.slotCmd_setMb (m := { s.mb h with heldBell := false }) rfl rfl, State.bells,
    State.mb_setMb_self, State.mb_setMb_self]
  rfl

end

/-! ## The rows of a doorbell and of a command's start -/

section
variable {s : State} {h : HostId} {v : BitVec 32}

/-- While the always-on domain works, a write to MB_DOORBELL is the doorbell. -/
theorem exec_mbDoorbell (ha : s.alive = true) : exec (.mbDoorbell h v) s = .next (s.doorbell h v) := by
  change execMbDoorbell h v s = _
  rw [execMbDoorbell, if_pos ha]

/-- In LOCKDOWN, or with an always-on rail down, it is dropped (R325). -/
theorem exec_mbDoorbell_dropped (ha : s.alive = false) : exec (.mbDoorbell h v) s = .next s := by
  change execMbDoorbell h v s = _
  rw [execMbDoorbell, if_neg (by simp [ha])]

/-- A doorbell of another value than MB_EXPECT_SEQ accepts nothing. -/
theorem mbDoorbell_unexpected {t : State} (hv : v ≠ (s.mb h).expect) (he : exec (.mbDoorbell h v) s = .next t) :
    (t.mb h).accepted = (s.mb h).accepted ∧ (t.mb h).expect = (s.mb h).expect := by
  cases ha : s.alive with
  | false =>
    obtain rfl := Host.Outcome.next.inj ((exec_mbDoorbell_dropped ha).symm.trans he)
    exact ⟨rfl, rfl⟩
  | true =>
    obtain rfl := Host.Outcome.next.inj ((exec_mbDoorbell ha).symm.trans he)
    simp [State.doorbell_ignored (.inl hv)]

/-- The oldest command starts and the doorbell held is taken up; whether the command then runs or is answered at once, the
acceptance part stays as that leaves it. -/
theorem commandStart_bells {c : Cmd} {r : List Cmd} (hAcc : (s.mb h).accepted = c :: r) (ha : s.alive = true)
    (hRun : s.wrd.halted = false) (hFree : (s.mb h).running = none) (hWait : (s.mb h).waiting = []) (hb : s.blocked h c = false) :
    Yields (.commandStart h) s fun t =>
      t.bells h = ((s.setMb h { s.mb h with accepted := r, running := some c }).heldDoorbell h).bells h := by
  change ∃ t, execCommandStart h s = .next t ∧ _
  have hGo : s.alive ∧ ¬ s.wrd.halted ∧ (s.mb h).running = none ∧ (s.mb h).waiting = [] ∧ ¬ s.blocked h c := by
    simp [ha, hRun, hFree, hWait, hb]
  simp only [execCommandStart, hAcc]
  rw [if_pos hGo]
  split
  · exact ⟨_, rfl, rfl⟩
  · split
    · exact ⟨_, rfl, (State.reply_bells _ _ _ _).trans (State.deny_bells _ _ _ _ _ _)⟩
    · exact ⟨_, rfl, State.reply_bells _ _ _ _⟩

/-- R338: the doorbell held is accepted as the oldest of the waiting commands starts. -/
theorem commandStart_accepts_held {c : Cmd} {r : List Cmd} (ha : s.alive = true) (hRun : s.wrd.halted = false)
    (hHeld : (s.mb h).heldBell = true) (hv : v = (s.mb h).expect) (hSlot : (s.mb h).slot v 0 = v)
    (hAcc : (s.mb h).accepted = c :: r) (hRoom : r.length < 64) (hFree : (s.mb h).running = none)
    (hWait : (s.mb h).waiting = []) (hb : s.blocked h c = false) :
    Yields (.commandStart h) s fun t => t.bells h = (r ++ [s.slotCmd h v], v + 1, false, (s.mb h).ignored) := by
  obtain ⟨t, ht, hBells⟩ := commandStart_bells hAcc ha hRun hFree hWait hb
  subst hv
  refine ⟨t, ht, hBells.trans ?_⟩
  rw [State.heldDoorbell_accepts (by simpa using hHeld) (by rwa [State.mb_setMb_self]) (by simpa using hRun) (by simpa using hRoom),
    State.slotCmd_setMb (m := { s.mb h with accepted := r, running := some c }) rfl rfl, State.mb_setMb_self]

end

/-- Settles O56: the three branches of a doorbell; the acceptance raises MB_EXPECT_SEQ, so that the same doorbell is an unexpected
one from then on; and the start of a command, which takes up the doorbell held and whose answer touches nothing of it. -/
theorem doorbellAcceptance : Obligations.DoorbellAcceptance := by
  refine ⟨fun s h v => ⟨fun ha => exec_mbDoorbell_dropped ha, fun ha hv hSlot hRun hRoom => ?_, fun ha hv hSlot hFull => ?_,
    fun ha hBad => ?_⟩, fun s t u h v _ hNext he => ?_, fun s h v ha hRun hHeld hv hSlot => ⟨fun hFull => ?_, ?_⟩⟩
  · exact ⟨_, exec_mbDoorbell ha, State.doorbell_accepts hv hSlot hRun hRoom⟩
  · exact ⟨_, exec_mbDoorbell ha, State.doorbell_held hv hSlot (.inr hFull)⟩
  · exact ⟨_, exec_mbDoorbell ha, State.doorbell_ignored hBad⟩
  · exact mbDoorbell_unexpected (by rw [hNext]; bv_omega) he
  · refine ⟨_, (exec_mbDoorbell ha).trans (congrArg _ (State.doorbell_held hv hSlot (.inr hFull))), ?_⟩
    exact (State.mb_setMb_self _ _ _).trans (by rw [← hHeld])
  · intro c r hAcc hRoom hFree hWait hb
    obtain ⟨t, ht, hBells⟩ := commandStart_accepts_held ha hRun hHeld hv hSlot hAcc hRoom hFree hWait hb
    refine ⟨t, ht, ?_⟩
    simpa [State.bells, Mbox.bells] using hBells

end Sys2Proof.Machine
end
